-- ==== Sys2Proof/Word.lean ====
section
/-! DEFINITION. The widths of the block: bytes, 7-bit device addresses and lengths, 16-bit fields and headers. -/

namespace Sys2Proof

/-- A byte: 8 bits, unsigned (00_scope.md R5). -/
abbrev Byte := BitVec 8

/-- A device address: 7 bits, `0x00` to `0x7F` (00_scope.md R6). -/
abbrev Addr := BitVec 7

/-- A payload length field: 7 bits, exactly `0` to `127` (30_encoding.md R42). -/
abbrev Len := BitVec 7

/-- A 16-bit payload field (45_payload_layouts.md R84), or a frame's first two bytes (30_encoding.md R51). -/
abbrev Half := BitVec 16

end Sys2Proof
end

