-- ==== Sys2Proof/Config.lean ====
section
/-! DEFINITION. What the spec leaves open: the size of the receive buffer, and the values that the transient
registers hold before an operation writes them. None has a body, so no proof can see a value of it. -/

namespace Sys2Proof

/-- How far the capacity of the receive buffer lies above 3 (00_scope.md R9: OPEN, at least 3; log 4). -/
opaque Config.rxBufSpare : Nat

/-- `RX_BUF_SIZE` of the block that `State.reset` describes: any number that is at least 3 (00_scope.md R9). -/
def Config.rxBufSize : Nat := Config.rxBufSpare + 3

/-- Free value: what `ACC` holds when operation number `k` begins (93_implementation_defined.md I7; log 5). -/
opaque Config.freeAcc : Nat → Byte

/-- Free value: what `TXB[i]` holds when operation number `k` begins (I7; log 5). Arguments: `k`, `i`. -/
opaque Config.freeTxb : Nat → Nat → Byte

/-- Free value: what `RXB[i]` holds when operation number `k` begins (I7; log 5). Arguments: `k`, `i`. -/
opaque Config.freeRxb : Nat → Nat → Byte

/-- Free value: what `L` holds when operation number `k` begins (I7; log 5). -/
opaque Config.freeDeclLen : Nat → Len

end Sys2Proof
end

