-- ==== Sys2Proof/Machine/Constants.lean ====
section
/-! DEFINITION. The wire format's literals, each in one place (00_scope.md R8, 93_implementation_defined.md I2; log 13). -/

namespace Sys2Proof

/-- Byte 0 of every outbound frame, `SRC_MARKER` (00_scope.md R8, 40_encode.md R58). -/
def Config.srcMarker : Byte := 0x51#8

/-- The tag bit of the length marker, `TAG` (R8, 30_encoding.md R42). -/
def Config.tag : Byte := 0x80#8

/-- The length field of the length marker, `LEN_MASK` (R8, R42). -/
def Config.lenMask : Byte := 0x7F#8

/-- The seed of the decode checksum fold, `RX_INIT` (R8, 41_decode.md R73). -/
def Config.rxInit : Byte := 0x50#8

/-- The byte-0 values that mean "not ready yet", `BUSY` (R8, 30_encoding.md R47). -/
def Config.busyA : Byte := 0x51#8

/-- The other busy value (R8, R47). -/
def Config.busyB : Byte := 0xFF#8

/-- `MAX_PAYLOAD` (00_scope.md R7). -/
def Config.maxPayload : Nat := 127

/-- The length of `TXB` in bytes (10_state.md R19), the largest frame (00_scope.md R10). -/
def Config.txBufSize : Nat := 130

/-- The requester's default device address (00_scope.md R6). The codec holds no address. -/
def Config.defaultAddr : Addr := 0x37#7

/-- The bound a requester passes when it decodes a read-control reply (45_payload_layouts.md R94). -/
def Config.controlReplyBound : Nat := 8

/-- Read-control request (45_payload_layouts.md R85). -/
def Config.opRdctrl : Byte := 0x01#8

/-- Read-control reply (R86). -/
def Config.opRdctrlReply : Byte := 0x02#8

/-- Write-control (R87). -/
def Config.opWrctrl : Byte := 0x03#8

/-- Save settings (R88). -/
def Config.opSave : Byte := 0x0C#8

/-- Capabilities request (R89). -/
def Config.opCaps : Byte := 0xF3#8

/-- Capabilities reply (R90). -/
def Config.opCapsReply : Byte := 0xE3#8

/-- Presence check (R91). -/
def Config.opPresence : Byte := 0xF7#8

end Sys2Proof
end

