-- ==== Sys2Proof/Machine/Request.lean ====
section
/-! DEFINITION. What is presented to the block and what the layouts' readers give: the request record and its forms, the
inbound header classes, the fields of the two replies. -/

namespace Sys2Proof

/-- A request, by the format of spec/opcode_table.json that its selecting bits are in. `port` is the codec's own
request record (10_state.md R14, R15). The other forms are the table's `HDR16` and `PAYLOAD_OP8` rows, notation for
the ENCODE or DECODE request of the bytes they present (30_encoding.md R51, R55; log 2). Widths are enforced by the types,
and every term is a request (10_state.md R27, 60_exceptions.md R105). -/
inductive Request where
  /-- `cmd`, `addr`, `max_len` (read by DECODE only), and `data`: the payload of an ENCODE, the `rx` of a DECODE. -/
  | port (cmd : BitVec 2) (addr : Addr) (maxLen : Nat) (data : List Byte)
  /-- An outbound frame's first two bytes, byte 0 in bits 15:8, and the payload to frame (30_encoding.md R40). -/
  | outHdr (hdr : Half) (addr : Addr) (payload : List Byte)
  /-- A received buffer by its first two bytes, byte 0 in bits 15:8, and the bytes after them (R51). -/
  | inHdr (hdr : Half) (addr : Addr) (maxLen : Nat) (rest : List Byte)
  /-- A message to send: the opcode, first payload byte (R53), and the payload bytes after it. -/
  | outMsg (op : Byte) (addr : Addr) (rest : List Byte)
  /-- A reply received: the received buffer, whose payload's first byte, at index 2, is the opcode (R41, R53). -/
  | inMsg (addr : Addr) (maxLen : Nat) (rx : List Byte)
  /-- A bare command: the opcode alone (45_payload_layouts.md R92). -/
  | bareMsg (op : Byte) (addr : Addr)
  deriving DecidableEq, Repr

/-- The class of a received buffer by its first two bytes, the rows of 30_encoding.md R51. -/
inductive HeaderClass where
  | busy51
  | busyFF
  | addressMismatch
  | missingTag
  | frameHeader
  deriving DecidableEq, Repr

/-- The fields of a read-control reply payload (45_payload_layouts.md R86). -/
structure ControlReply where
  opcode    : Byte
  validity  : Byte
  controlId : Byte
  reserved  : Byte
  maximum   : Half
  current   : Half
  deriving DecidableEq, Repr

/-- The fields of a capabilities reply payload (45_payload_layouts.md R90). -/
structure CapabilityChunk where
  opcode : Byte
  offset : Half
  data   : List Byte
  deriving DecidableEq, Repr

end Sys2Proof
end

