-- ==== Sys2Proof/Machine/Operands.lean ====
section
/-! DEFINITION. The forms an operand takes: the address byte, the length marker, the checksum fold, the inbound header
classes, 16-bit fields, the payload layouts as builders and as readers. -/

namespace Sys2Proof

/-- `A8`: the 7-bit address widened and shifted left by one (30_encoding.md R43). -/
def addressByte (addr : Addr) : Byte := addr.setWidth 8 <<< 1

/-- `0x80 | L` (30_encoding.md R44). -/
def packMarker (length : Nat) : Byte := Config.tag ||| BitVec.ofNat 8 length

/-- `tag = b1[7]` (30_encoding.md R45). -/
def tagBit (marker : Byte) : Bool := marker.getLsbD 7

/-- `L = b1 & 0x7F` (30_encoding.md R45, 41_decode.md R70). -/
def declaredLength (marker : Byte) : Len := (marker &&& Config.lenMask).setWidth 7

/-- The number of bytes of a frame, decided by its byte 1 alone; none when the tag bit is 0 (30_encoding.md R48). -/
def frameLength (marker : Byte) : Option Nat :=
  if tagBit marker then some ((declaredLength marker).toNat + 3) else none

/-- `Fold(init, xs)` (00_scope.md R12). -/
def fold (init : Byte) : List Byte → Byte
  | [] => init
  | x :: xs => fold (init ^^^ x) xs

/-- A byte 0 that is a BusyIndicator (30_encoding.md R47). -/
def isBusy (b0 : Byte) : Bool := b0 == Config.busyA || b0 == Config.busyB

/-- Two bytes as 16 bits, the first in bits 15:8 (30_encoding.md R51, 45_payload_layouts.md R84). -/
def joinBytes (hi lo : Byte) : Half := hi.setWidth 16 <<< 8 ||| lo.setWidth 16

/-- `highByte(v)` (45_payload_layouts.md R84). -/
def highByte (v : Half) : Byte := (v >>> 8).setWidth 8

/-- `lowByte(v)` (45_payload_layouts.md R84). -/
def lowByte (v : Half) : Byte := v.setWidth 8

/-- The class of a received buffer, rows tested in order (30_encoding.md R51). -/
def headerClass (addr : Addr) (b0 b1 : Byte) : HeaderClass :=
  if b0 = Config.busyA then .busy51
  else if b0 = Config.busyB then .busyFF
  else if b0 ≠ addressByte addr then .addressMismatch
  else if tagBit b1 = false then .missingTag
  else .frameHeader

/-- The frame a display at `addr` would send carrying `p` (41_decode.md R79). -/
def replyImage (addr : Addr) (p : List Byte) : List Byte :=
  let h := addressByte addr :: packMarker p.length :: p
  h ++ [fold Config.rxInit h]

/-- The payload a buffer carries if it is a reply image: all but the two bytes before it and the checksum
(41_decode.md R79). -/
def carriedPayload (rx : List Byte) : List Byte := (rx.drop 2).dropLast

/-- Read-control request payload (45_payload_layouts.md R85). -/
def rdctrlPayload (id : Byte) : List Byte := [Config.opRdctrl, id]

/-- Read-control reply payload (R86). -/
def rdctrlReplyPayload (validity id reserved : Byte) (maximum current : Half) : List Byte :=
  [Config.opRdctrlReply, validity, id, reserved, highByte maximum, lowByte maximum, highByte current, lowByte current]

/-- Write-control payload (R87). -/
def wrctrlPayload (id : Byte) (value : Half) : List Byte := [Config.opWrctrl, id, highByte value, lowByte value]

/-- Save-settings payload (R88). -/
def savePayload : List Byte := [Config.opSave]

/-- Capabilities request payload (R89). -/
def capsPayload (offset : Half) : List Byte := [Config.opCaps, highByte offset, lowByte offset]

/-- Capabilities reply payload (R90). -/
def capsReplyPayload (offset : Half) (data : List Byte) : List Byte :=
  Config.opCapsReply :: highByte offset :: lowByte offset :: data

/-- A presence check's payload: the opcode and whatever the requester puts after it (R91, D22; log 11). -/
def presencePayload (rest : List Byte) : List Byte := Config.opPresence :: rest

/-- Bare command payload (R92). -/
def barePayload (op : Byte) : List Byte := [op]

/-- The fields of a read-control reply; a payload that has not 8 bytes has none (R86, N10; log 10). -/
def readControlReply : List Byte → Option ControlReply
  | [op, validity, id, reserved, maxHigh, maxLow, curHigh, curLow] =>
    some ⟨op, validity, id, reserved, joinBytes maxHigh maxLow, joinBytes curHigh curLow⟩
  | _ => none

/-- `0x00` means valid, every other value invalid (R93). -/
def ControlReply.valid (r : ControlReply) : Bool := r.validity == 0#8

/-- The fields of a capabilities reply; a payload with fewer than 3 bytes has no offset field (R90; log 10). -/
def readCapabilityChunk : List Byte → Option CapabilityChunk
  | op :: offHigh :: offLow :: data => some ⟨op, joinBytes offHigh offLow, data⟩
  | _ => none

/-- A reply whose payload has at most 3 bytes ends the capability stream (R90). -/
def terminalChunk (payload : List Byte) : Bool := payload.length ≤ 3

end Sys2Proof
end

