-- ==== Sys2Proof/Syntax.lean ====
section
/-! DEFINITION. The instructions: one constructor for each row of spec/opcode_table.json. -/

namespace Sys2Proof

/-- What a request asks for. The first four are the `cmd` values (30_encoding.md R49, R50), the next six the header
rows (R40, R51), the last eight the payload opcodes (45_payload_layouts.md). -/
inductive Instr where
  /-- ENCODE (40_encode.md R56). -/
  | encode (addr : Addr) (payload : List Byte)
  /-- DECODE (41_decode.md R65). -/
  | decode (addr : Addr) (maxLen : Nat) (rx : List Byte)
  /-- RESERVED_CMD_00 (30_encoding.md R50): the request's other fields are not read. -/
  | reservedCmd00
  /-- RESERVED_CMD_11 (R50). -/
  | reservedCmd11
  /-- TX_HDR (R40): the outbound frame whose first two bytes are `0x51`, `0x80|length`. -/
  | txHdr (addr : Addr) (length : Len) (payload : List Byte)
  /-- RX_BUSY_51 (R51 row 1): the received buffer is `0x51`, `b1`, `rest`. -/
  | rxBusy51 (addr : Addr) (maxLen : Nat) (b1 : Byte) (rest : List Byte)
  /-- RX_BUSY_FF (R51 row 2): the received buffer is `0xFF`, `b1`, `rest`. -/
  | rxBusyFF (addr : Addr) (maxLen : Nat) (b1 : Byte) (rest : List Byte)
  /-- RX_ADDR_MISMATCH (R51 row 3): the received buffer is `b0`, `b1`, `rest`. -/
  | rxAddrMismatch (addr : Addr) (maxLen : Nat) (b0 b1 : Byte) (rest : List Byte)
  /-- RX_MISSING_TAG (R51 row 4): the received buffer is `addr<<1`, tag 0 and `low`, `rest`. -/
  | rxMissingTag (addr : Addr) (maxLen : Nat) (low : Len) (rest : List Byte)
  /-- RX_REPLY_HDR (R51 row 5): the received buffer is `addr<<1`, tag 1 and `length`, `rest`. -/
  | rxReplyHdr (addr : Addr) (maxLen : Nat) (length : Len) (rest : List Byte)
  /-- RDCTRL_REQ (45_payload_layouts.md R85). -/
  | rdctrlReq (addr : Addr) (id : Byte)
  /-- RDCTRL_REPLY (R86), decoded with `max_len = 8` (R94). -/
  | rdctrlReply (addr : Addr) (validity id reserved : Byte) (maximum current : Half)
  /-- WRCTRL (R87). -/
  | wrctrl (addr : Addr) (id : Byte) (value : Half)
  /-- SAVE (R88). -/
  | save (addr : Addr)
  /-- CAPS_REQ (R89). -/
  | capsReq (addr : Addr) (offset : Half)
  /-- CAPS_REPLY (R90). -/
  | capsReply (addr : Addr) (maxLen : Nat) (offset : Half) (data : List Byte)
  /-- PRESENCE (R91): the opcode and whatever follows it. -/
  | presence (addr : Addr) (rest : List Byte)
  /-- BARE (R92). -/
  | bare (addr : Addr) (op : Byte)
  deriving DecidableEq, Repr

end Sys2Proof
end

