-- ==== Sys2Proof/WellFormed.lean ====
section
/-! DEFINITION. Which terms of `Instr` stand for a request: the relations between fields that the types do not say. -/

namespace Sys2Proof

/-- A header row's term has the header its name says (30_encoding.md R40, R51); a reply's payload has at most 127
bytes (00_scope.md R7). Every other term stands for a request (10_state.md R27). -/
def Instr.wellFormed : Instr → Bool
  | .encode _ _ => true
  | .decode _ _ _ => true
  | .reservedCmd00 => true
  | .reservedCmd11 => true
  | .txHdr _ length payload => payload.length == length.toNat
  | .rxBusy51 _ _ _ _ => true
  | .rxBusyFF _ _ _ _ => true
  | .rxAddrMismatch addr _ b0 b1 _ => headerClass addr b0 b1 == .addressMismatch
  | .rxMissingTag _ _ _ _ => true
  | .rxReplyHdr _ _ _ _ => true
  | .rdctrlReq _ _ => true
  | .rdctrlReply _ _ _ _ _ _ => true
  | .wrctrl _ _ _ => true
  | .save _ => true
  | .capsReq _ _ => true
  | .capsReply _ _ offset data => decide ((capsReplyPayload offset data).length ≤ Config.maxPayload)
  | .presence _ _ => true
  | .bare _ _ => true

end Sys2Proof
end

