-- ==== Sys2Proof/Decode.lean ====
section
/-! DEFINITION. From a presented request to an instruction, total: every request is one (10_state.md R27). Then the encoder,
the expansions, and the reading of a table word. -/

namespace Sys2Proof

/-- The operation selector (30_encoding.md R49, R50). -/
def decodePort (cmd : BitVec 2) (addr : Addr) (maxLen : Nat) (data : List Byte) : Instr :=
  if cmd = 0b01#2 then .encode addr data
  else if cmd = 0b10#2 then .decode addr maxLen data
  else if cmd = 0b00#2 then .reservedCmd00
  else .reservedCmd11

/-- An outbound header: `0x51`, then tag and the payload's length (30_encoding.md R40, R42). ENCODE makes the header
itself (40_encode.md R58, R59), so the payload under any other header is a plain ENCODE (log 12). -/
def decodeOutHdr (hdr : Half) (addr : Addr) (payload : List Byte) : Instr :=
  if highByte hdr = Config.srcMarker ∧ tagBit (lowByte hdr) = true ∧
      payload.length = (declaredLength (lowByte hdr)).toNat then
    .txHdr addr (declaredLength (lowByte hdr)) payload
  else .encode addr payload

/-- An inbound header, by its class (30_encoding.md R51). -/
def decodeInHdr (hdr : Half) (addr : Addr) (maxLen : Nat) (rest : List Byte) : Instr :=
  match headerClass addr (highByte hdr) (lowByte hdr) with
  | .busy51 => .rxBusy51 addr maxLen (lowByte hdr) rest
  | .busyFF => .rxBusyFF addr maxLen (lowByte hdr) rest
  | .addressMismatch => .rxAddrMismatch addr maxLen (highByte hdr) (lowByte hdr) rest
  | .missingTag => .rxMissingTag addr maxLen (declaredLength (lowByte hdr)) rest
  | .frameHeader => .rxReplyHdr addr maxLen (declaredLength (lowByte hdr)) rest

/-- A message to send, by its opcode (45_payload_layouts.md R85, R87 to R89, R91). ENCODE accepts every payload
(30_encoding.md R52, R53), so one that has no row's layout is a plain ENCODE (log 12). -/
def decodeOutMsg (op : Byte) (addr : Addr) (rest : List Byte) : Instr :=
  if op = Config.opPresence then .presence addr rest
  else
    match rest with
    | [] => if op = Config.opSave then .save addr else .encode addr [op]
    | [id] => if op = Config.opRdctrl then .rdctrlReq addr id else .encode addr [op, id]
    | [hi, lo] => if op = Config.opCaps then .capsReq addr (joinBytes hi lo) else .encode addr [op, hi, lo]
    | [id, hi, lo] => if op = Config.opWrctrl then .wrctrl addr id (joinBytes hi lo) else .encode addr [op, id, hi, lo]
    | _ => .encode addr (op :: rest)

/-- A reply received (45_payload_layouts.md R86, R90, R94): the buffer is the reply image of a payload with a row's
layout. DECODE takes every buffer (41_decode.md R65, R86 "Corner cases"), so any other one is a plain DECODE (log 12). -/
def decodeInMsg (addr : Addr) (maxLen : Nat) (rx : List Byte) : Instr :=
  if rx = replyImage addr (carriedPayload rx) ∧ (carriedPayload rx).length ≤ Config.maxPayload then
    match carriedPayload rx with
    | op :: x :: y :: rest =>
      if op = Config.opCapsReply then .capsReply addr maxLen (joinBytes x y) rest
      else if op = Config.opRdctrlReply ∧ maxLen = Config.controlReplyBound then
        match rest with
        | [reserved, maxHigh, maxLow, curHigh, curLow] =>
          .rdctrlReply addr x y reserved (joinBytes maxHigh maxLow) (joinBytes curHigh curLow)
        | _ => .decode addr maxLen rx
      else .decode addr maxLen rx
    | _ => .decode addr maxLen rx
  else .decode addr maxLen rx

/-- The instruction a request is. -/
def decode : Request → Instr
  | .port cmd addr maxLen data => decodePort cmd addr maxLen data
  | .outHdr hdr addr payload => decodeOutHdr hdr addr payload
  | .inHdr hdr addr maxLen rest => decodeInHdr hdr addr maxLen rest
  | .outMsg op addr rest => decodeOutMsg op addr rest
  | .inMsg addr maxLen rx => decodeInMsg addr maxLen rx
  | .bareMsg op addr => .bare addr op

/-- The request that presents an instruction, from the same rules (30_encoding.md R40, R49, R51; 45_payload_layouts.md
R85 to R92). A field the selected operation does not read is 0 or empty. -/
def encode : Instr → Request
  | .encode addr payload => .port 0b01#2 addr 0 payload
  | .decode addr maxLen rx => .port 0b10#2 addr maxLen rx
  | .reservedCmd00 => .port 0b00#2 0#7 0 []
  | .reservedCmd11 => .port 0b11#2 0#7 0 []
  | .txHdr addr length payload => .outHdr (joinBytes Config.srcMarker (packMarker length.toNat)) addr payload
  | .rxBusy51 addr maxLen b1 rest => .inHdr (joinBytes Config.busyA b1) addr maxLen rest
  | .rxBusyFF addr maxLen b1 rest => .inHdr (joinBytes Config.busyB b1) addr maxLen rest
  | .rxAddrMismatch addr maxLen b0 b1 rest => .inHdr (joinBytes b0 b1) addr maxLen rest
  | .rxMissingTag addr maxLen low rest => .inHdr (joinBytes (addressByte addr) (low.setWidth 8)) addr maxLen rest
  | .rxReplyHdr addr maxLen length rest =>
    .inHdr (joinBytes (addressByte addr) (packMarker length.toNat)) addr maxLen rest
  | .rdctrlReq addr id => .outMsg Config.opRdctrl addr [id]
  | .rdctrlReply addr validity id reserved maximum current =>
    .inMsg addr Config.controlReplyBound (replyImage addr (rdctrlReplyPayload validity id reserved maximum current))
  | .wrctrl addr id value => .outMsg Config.opWrctrl addr [id, highByte value, lowByte value]
  | .save addr => .outMsg Config.opSave addr []
  | .capsReq addr offset => .outMsg Config.opCaps addr [highByte offset, lowByte offset]
  | .capsReply addr maxLen offset data =>
    .inMsg addr maxLen (replyImage addr (capsReplyPayload offset data))
  | .presence addr rest => .outMsg Config.opPresence addr rest
  | .bare addr op => .bareMsg op addr

/-- `RDREPLY a, [rx]` (30_encoding.md R55). -/
def rdreply (addr : Addr) (rx : List Byte) : Instr := .decode addr Config.controlReplyBound rx

/-- The ENCODE or DECODE request that a header row or a payload row stands for (30_encoding.md R51, R55;
45_payload_layouts.md R83); the `cmd` rows stand for themselves. -/
def Instr.expansion : Instr → Instr
  | .encode addr payload => .encode addr payload
  | .decode addr maxLen rx => .decode addr maxLen rx
  | .reservedCmd00 => .reservedCmd00
  | .reservedCmd11 => .reservedCmd11
  | .txHdr addr _ payload => .encode addr payload
  | .rxBusy51 addr maxLen b1 rest => .decode addr maxLen (Config.busyA :: b1 :: rest)
  | .rxBusyFF addr maxLen b1 rest => .decode addr maxLen (Config.busyB :: b1 :: rest)
  | .rxAddrMismatch addr maxLen b0 b1 rest => .decode addr maxLen (b0 :: b1 :: rest)
  | .rxMissingTag addr maxLen low rest => .decode addr maxLen (addressByte addr :: low.setWidth 8 :: rest)
  | .rxReplyHdr addr maxLen length rest => .decode addr maxLen (addressByte addr :: packMarker length.toNat :: rest)
  | .rdctrlReq addr id => .encode addr (rdctrlPayload id)
  | .rdctrlReply addr validity id reserved maximum current =>
    rdreply addr (replyImage addr (rdctrlReplyPayload validity id reserved maximum current))
  | .wrctrl addr id value => .encode addr (wrctrlPayload id value)
  | .save addr => .encode addr savePayload
  | .capsReq addr offset => .encode addr (capsPayload offset)
  | .capsReply addr maxLen offset data => .decode addr maxLen (replyImage addr (capsReplyPayload offset data))
  | .presence addr rest => .encode addr (presencePayload rest)
  | .bare addr op => .encode addr (barePayload op)

/-- The selecting bits of a request as spec/opcode_table.json numbers them: `cmd`, a header with byte 0 in bits 15:8,
or an opcode (of a reply, payload byte 0, which stands at index 2 of the received buffer). -/
def Request.tableWord : Request → Nat
  | .port cmd _ _ _ => cmd.toNat
  | .outHdr hdr _ _ => hdr.toNat
  | .inHdr hdr _ _ _ => hdr.toNat
  | .outMsg op _ _ => op.toNat
  | .inMsg _ _ rx => ((rx[2]?).getD 0#8).toNat
  | .bareMsg op _ => op.toNat

/-- The `mask` and `match` of an instruction's row of spec/opcode_table.json, for the instruction's own address where
the row shows the default one ("in general match = (addr<<9)"); a row without them has 0 and 0. -/
def Instr.tableRow : Instr → Nat × Nat
  | .encode _ _ => (0x3, 0x1)
  | .decode _ _ _ => (0x3, 0x2)
  | .reservedCmd00 => (0x3, 0x0)
  | .reservedCmd11 => (0x3, 0x3)
  | .txHdr _ _ _ => (0xFF80, 0x5180)
  | .rxBusy51 _ _ _ _ => (0xFF00, 0x5100)
  | .rxBusyFF _ _ _ _ => (0xFF00, 0xFF00)
  | .rxAddrMismatch _ _ _ _ _ => (0, 0)
  | .rxMissingTag addr _ _ _ => (0xFF80, addr.toNat <<< 9)
  | .rxReplyHdr addr _ _ _ => (0xFF80, addr.toNat <<< 9 ||| 0x80)
  | .rdctrlReq _ _ => (0xFF, 0x01)
  | .rdctrlReply _ _ _ _ _ _ => (0xFF, 0x02)
  | .wrctrl _ _ _ => (0xFF, 0x03)
  | .save _ => (0xFF, 0x0C)
  | .capsReq _ _ => (0xFF, 0xF3)
  | .capsReply _ _ _ _ => (0xFF, 0xE3)
  | .presence _ _ => (0xFF, 0xF7)
  | .bare _ _ => (0x00, 0x00)

/-- An 8-bit table word as a request. The formats `REQ` and `PAYLOAD_OP8` share the words 0 to 3, which are read as
`cmd`; every other word is an opcode, with operand bytes of zero (log 3). -/
def tableRequest8 (w : Byte) : Request :=
  if w.toNat ≤ 3 then .port (w.setWidth 2) 0#7 0 []
  else if w = Config.opCapsReply then .inMsg 0#7 0 (replyImage 0#7 (capsReplyPayload 0#16 []))
  else if w = Config.opCaps then .outMsg w 0#7 [0#8, 0#8]
  else if w = Config.opSave ∨ w = Config.opPresence then .outMsg w 0#7 []
  else .bareMsg w 0#7

/-- A 16-bit table word as a request: an outbound header where TX_HDR's row matches, else an inbound one, followed by
bytes of zero. The address is the default one, for which the table shows its inbound rows (log 3). -/
def tableRequest16 (w : Half) : Request :=
  if highByte w = Config.srcMarker ∧ tagBit (lowByte w) = true then
    .outHdr w Config.defaultAddr (List.replicate (declaredLength (lowByte w)).toNat 0#8)
  else .inHdr w Config.defaultAddr 0 [0#8]

/-- The request whose selecting bits are `w`, numbered as the table numbers them. -/
def tableRequest (nbits w : Nat) : Request :=
  if nbits ≤ 8 then tableRequest8 (BitVec.ofNat 8 w) else tableRequest16 (BitVec.ofNat 16 w)

/-- The instruction that the decoder reads from a table word. -/
def decodeTableWord (nbits w : Nat) : Option Instr := some (decode (tableRequest nbits w))

end Sys2Proof
end

