-- ==== Sys2Proof/Machine/State.lean ====
section
/-! DEFINITION. The state of the block, the reasons a step may stop, and the state after reset. -/

namespace Sys2Proof.Machine

/-- The outcome of an operation (10_state.md R17). -/
inductive Status where
  | ok
  | payloadTooLarge
  | busy
  | addressMismatch
  | missingTag
  | lengthOverflow
  | checksumMismatch
  | badRequest
  deriving DecidableEq, Repr

/-- The error classes that the codec's statuses map to (60_exceptions.md R102). -/
inductive ErrorClass where
  | notReadyYet
  | malformedFrame
  deriving DecidableEq, Repr

/-- The response record (10_state.md R16). -/
structure Response where
  status : Status
  out    : List Byte
  diag   : List Byte
  deriving DecidableEq, Repr

/-- What the outside does to the block, in the order it happens (20_memory.md R38, 70_reset_and_hazards.md R106, R107,
R109; log 8). -/
inductive Input where
  /-- The requester presents a request. -/
  | request (r : Request)
  /-- Reset while the codec is idle. -/
  | reset
  /-- The requester presents a request, and reset arrives while its operation is in progress. -/
  | resetDuring (r : Request)
  deriving DecidableEq, Repr

/-- The block's state: the requester's side (`inputs`, `response`), the transient registers of one operation as they
stand when its response is given (10_state.md R19, R20), the construction-time parameter (00_scope.md R9), and the
model's counter for free values (log 5). -/
structure State where
  /-- Requests not yet started and pulses of reset, the next one first. -/
  inputs : List Input
  /-- The pending response (10_state.md R16); none after reset (R26). Between operations it shows the response last given,
  which is the model's choice (log 14). -/
  response : Option Response
  /-- `ACC` (10_state.md R19, R20). -/
  acc : Byte
  /-- `TXB`, index 0 first (10_state.md R19). -/
  txb : List Byte
  /-- `RXB`: the bytes it holds, index 0 first; higher indices hold nothing (10_state.md R20). -/
  rxb : List Byte
  /-- `L` (10_state.md R20). -/
  declLen : Len
  /-- `RX_BUF_SIZE`, fixed for the life of the block (70_reset_and_hazards.md R108). -/
  rxBufSize : Nat
  /-- The model's own: how many operations have begun (log 5). -/
  opCount : Nat
  deriving DecidableEq, Repr

/-- The block has no fault: every failure is a status of the response (60_exceptions.md R95, R105). -/
inductive Fault where
  deriving DecidableEq, Repr

/-- Why a step may have no meaning. There is no other reason: every request has a defined response (10_state.md R27,
60_exceptions.md R105). -/
inductive Refusal where
  /-- Raised by `exec` for an instruction that has no meaning yet (none). Safe: no next state is claimed. -/
  | notModelled (mnemonic : String)
  deriving DecidableEq, Repr

/-- The block after reset, built with a receive buffer of the given size: idle, nothing presented, no response pending
(10_state.md R26, 70_reset_and_hazards.md R106). The spec gives the transient registers no reset value: `ACC`, `TXB` and
`L` are zero and `RXB` holds nothing (log 6). -/
def State.resetWith (rxBufSize : Nat) : State where
  inputs := []
  response := none
  acc := 0#8
  txb := List.replicate Config.txBufSize 0#8
  rxb := []
  declLen := 0#7
  rxBufSize := rxBufSize
  opCount := 0

/-- The block after reset, its receive buffer of the size the spec leaves open (00_scope.md R9; log 4). -/
def State.reset : State := State.resetWith Config.rxBufSize

end Sys2Proof.Machine
end

