-- ==== Sys2Proof/Machine/Flags.lean ====
section
/-! DEFINITION. The one condition the block reports: the status, its code, its class, and the diagnostic bytes that go
with it (10_state.md R24). -/

namespace Sys2Proof.Machine

/-- The code of a status at a port (10_state.md R17). -/
def Status.code : Status → BitVec 3
  | .ok => 0#3
  | .payloadTooLarge => 1#3
  | .busy => 2#3
  | .addressMismatch => 3#3
  | .missingTag => 4#3
  | .lengthOverflow => 5#3
  | .checksumMismatch => 6#3
  | .badRequest => 7#3

/-- The error class of a status; `OK`, `PayloadTooLarge` and `BadRequest` have none (60_exceptions.md R102). -/
def Status.errorClass : Status → Option ErrorClass
  | .ok => none
  | .payloadTooLarge => none
  | .busy => some .notReadyYet
  | .addressMismatch => some .malformedFrame
  | .missingTag => some .malformedFrame
  | .lengthOverflow => some .malformedFrame
  | .checksumMismatch => some .malformedFrame
  | .badRequest => none

/-- The diagnostic bytes of a failed DECODE of `rx` (41_decode.md R78, 60_exceptions.md R104). -/
def diagnostics (status : Status) (rx : List Byte) : List Byte :=
  if status.errorClass = some .malformedFrame then rx else []

end Sys2Proof.Machine
end

