-- ==== Sys2Proof/Machine/Ops.lean ====
section
/-! DEFINITION. The named operations on the transient registers and the response, and the two operations of the block
built from them. There is no trap entry and no return from one (60_exceptions.md R100): a failure is `State.raise`. -/

namespace Sys2Proof.Machine

/-- What `TXB` or `RXB` holds before an operation writes it: `n` free values, index 0 first (log 5). -/
def freeBytes (f : Nat → Byte) (n : Nat) : List Byte := (List.range n).map f

/-- An operation begins: the previous response has been given (70_reset_and_hazards.md R109), and no transient register
keeps a value from an earlier operation (10_state.md R13, 93_implementation_defined.md I7). -/
def State.beginOp (s : State) : State :=
  { s with
    response := none
    acc := Config.freeAcc s.opCount
    txb := freeBytes (Config.freeTxb s.opCount) Config.txBufSize
    rxb := freeBytes (Config.freeRxb s.opCount) s.rxBufSize
    declLen := Config.freeDeclLen s.opCount
    opCount := s.opCount + 1 }

/-- Reset: idle, no response pending, transient registers unspecified, the next request taken as the first
(70_reset_and_hazards.md R106, R107; log 8). -/
def State.resetPulse (s : State) : State := s.beginOp

/-- The rest of the inputs, once the first is taken (20_memory.md R38). -/
def State.withInputs (s : State) (rest : List Input) : State := { s with inputs := rest }

/-- The response of the operation (10_state.md R16). -/
def State.respond (s : State) (r : Response) : State := { s with response := some r }

/-- `return ok(out)` (00_scope.md section 5). -/
def State.answerOk (s : State) (out : List Byte) : State := s.respond ⟨.ok, out, []⟩

/-- `raise <Status>`: the failure status, no output, and the received bytes `rx` for a MalformedFrame status
(60_exceptions.md R95, R104; 10_state.md R18). -/
def State.raise (s : State) (status : Status) (rx : List Byte) : State :=
  s.respond ⟨status, [], diagnostics status rx⟩

/-- `ACC <- v` (10_state.md R19). -/
def State.setAcc (s : State) (v : Byte) : State := { s with acc := v }

/-- `ACC <- ACC ^ v` for each byte in order (40_encode.md R58 to R60, 41_decode.md R73). -/
def State.foldBytes (s : State) (xs : List Byte) : State := { s with acc := fold s.acc xs }

/-- `TxWrite(i, v)` (00_scope.md R12, 10_state.md R19). -/
def State.txWrite (s : State) (i : Nat) (v : Byte) : State := { s with txb := s.txb.set i v }

/-- `TxWrite(i, v)` and then `ACC <- ACC ^ v` (40_encode.md R58 to R60). -/
def State.txEmit (s : State) (i : Nat) (v : Byte) : State := (s.txWrite i v).foldBytes [v]

/-- Bytes emitted at `i`, `i + 1`, ... in order (40_encode.md R60, 20_memory.md R29). -/
def State.txEmitAll (s : State) (i : Nat) : List Byte → State
  | [] => s
  | v :: vs => (s.txEmit i v).txEmitAll (i + 1) vs

/-- `RXB` is loaded with the received bytes (10_state.md R20, R26). -/
def State.rxLoad (s : State) (rx : List Byte) : State := { s with rxb := rx }

/-- `RxRead(i)`; none where `RXB` holds nothing (00_scope.md R12). -/
def State.rxRead (s : State) (i : Nat) : Option Byte := s.rxb[i]?

/-- `L <- v` (41_decode.md R70). -/
def State.setDeclLen (s : State) (v : Len) : State := { s with declLen := v }

/-- ENCODE (40_encode.md R56). -/
def State.encodeOp (s : State) (addr : Addr) (payload : List Byte) : State :=
  let s := s.beginOp
  if Config.maxPayload < payload.length then s.raise .payloadTooLarge []
  else
    let s := s.setAcc (addressByte addr)
    let s := s.txEmit 0 Config.srcMarker
    let s := s.txEmit 1 (packMarker payload.length)
    let s := s.txEmitAll 2 payload
    let s := s.txWrite (payload.length + 2) s.acc
    s.answerOk (s.txb.take (payload.length + 3))

/-- The verdict on the fold, and the payload (41_decode.md R74, R75). -/
def State.verdict (s : State) : State :=
  if s.acc ≠ 0#8 then s.raise .checksumMismatch s.rxb
  else s.answerOk ((s.rxb.drop 2).take s.declLen.toNat)

/-- The two bounds on the declared length, then the fold over indices `0` to `L + 2` (41_decode.md R71 to R73). -/
def State.checkLength (s : State) (maxLen : Nat) : State :=
  if maxLen < s.declLen.toNat ∨ s.rxBufSize < s.declLen.toNat then s.raise .lengthOverflow s.rxb
  else if s.rxb.length < s.declLen.toNat + 3 then s.raise .lengthOverflow s.rxb
  else ((s.setAcc Config.rxInit).foldBytes (s.rxb.take (s.declLen.toNat + 3))).verdict

/-- The tag check and the declared length, once byte 1 is read (41_decode.md R69, R70). -/
def State.checkMarker (s : State) (maxLen : Nat) (b1 : Byte) : State :=
  if tagBit b1 = false then s.raise .missingTag s.rxb
  else (s.setDeclLen (declaredLength b1)).checkLength maxLen

/-- The busy and address checks, once byte 0 is read; then byte 1 is read (41_decode.md R67, R68). The last case does
not arise after the request bounds of R66. -/
def State.checkLead (s : State) (addr : Addr) (maxLen : Nat) (b0 : Byte) : State :=
  if isBusy b0 = true then s.raise .busy s.rxb
  else if b0 ≠ addressByte addr then s.raise .addressMismatch s.rxb
  else
    match s.rxRead 1 with
    | some b1 => s.checkMarker maxLen b1
    | none => s.raise .badRequest s.rxb

/-- DECODE (41_decode.md R65). The case of an empty `RXB` does not arise after the request bounds of R66. -/
def State.decodeOp (s : State) (addr : Addr) (maxLen : Nat) (rx : List Byte) : State :=
  let s := s.beginOp
  if rx.length < 3 ∨ s.rxBufSize < rx.length then s.raise .badRequest rx
  else
    let s := s.rxLoad rx
    match s.rxRead 0 with
    | some b0 => s.checkLead addr maxLen b0
    | none => s.raise .badRequest rx

/-- A request with a reserved selector (30_encoding.md R50). -/
def State.reservedOp (s : State) : State := s.beginOp.raise .badRequest []

end Sys2Proof.Machine
end

