-- ==== Sys2Proof/Machine/Codec.lean ====
section
/-! DEFINITION. The `cmd` values of a request: ENCODE, DECODE and the two reserved ones. -/

namespace Sys2Proof.Machine

/-- ENCODE (40_encode.md R56). -/
def execEncode (addr : Addr) (payload : List Byte) (s : State) : Host.Outcome State Fault Refusal :=
  .next (s.encodeOp addr payload)

/-- DECODE (41_decode.md R65). -/
def execDecode (addr : Addr) (maxLen : Nat) (rx : List Byte) (s : State) : Host.Outcome State Fault Refusal :=
  .next (s.decodeOp addr maxLen rx)

/-- RESERVED_CMD_00 (30_encoding.md R50). -/
def execReservedCmd00 (s : State) : Host.Outcome State Fault Refusal := .next s.reservedOp

/-- RESERVED_CMD_11 (30_encoding.md R50). -/
def execReservedCmd11 (s : State) : Host.Outcome State Fault Refusal := .next s.reservedOp

end Sys2Proof.Machine
end

