-- ==== Sys2Proof/Machine/Headers.lean ====
section
/-! DEFINITION. The header rows: an outbound frame by the header it gets, a received buffer by the header it has. -/

namespace Sys2Proof.Machine

/-- TX_HDR: the frame whose header announces the payload's length (30_encoding.md R40, R44; log 9). -/
def execTxHdr (addr : Addr) (payload : List Byte) (s : State) : Host.Outcome State Fault Refusal :=
  .next (s.encodeOp addr payload)

/-- RX_BUSY_51 (30_encoding.md R51 row 1, 41_decode.md R67). -/
def execRxBusy51 (addr : Addr) (maxLen : Nat) (b1 : Byte) (rest : List Byte) (s : State) :
    Host.Outcome State Fault Refusal :=
  .next (s.decodeOp addr maxLen (Config.busyA :: b1 :: rest))

/-- RX_BUSY_FF (R51 row 2, R67). -/
def execRxBusyFF (addr : Addr) (maxLen : Nat) (b1 : Byte) (rest : List Byte) (s : State) :
    Host.Outcome State Fault Refusal :=
  .next (s.decodeOp addr maxLen (Config.busyB :: b1 :: rest))

/-- RX_ADDR_MISMATCH (R51 row 3, R68). -/
def execRxAddrMismatch (addr : Addr) (maxLen : Nat) (b0 b1 : Byte) (rest : List Byte) (s : State) :
    Host.Outcome State Fault Refusal :=
  .next (s.decodeOp addr maxLen (b0 :: b1 :: rest))

/-- RX_MISSING_TAG (R51 row 4, R69). -/
def execRxMissingTag (addr : Addr) (maxLen : Nat) (low : Len) (rest : List Byte) (s : State) :
    Host.Outcome State Fault Refusal :=
  .next (s.decodeOp addr maxLen (addressByte addr :: low.setWidth 8 :: rest))

/-- RX_REPLY_HDR (R51 row 5, 41_decode.md R70 to R75). -/
def execRxReplyHdr (addr : Addr) (maxLen : Nat) (length : Len) (rest : List Byte) (s : State) :
    Host.Outcome State Fault Refusal :=
  .next (s.decodeOp addr maxLen (addressByte addr :: packMarker length.toNat :: rest))

end Sys2Proof.Machine
end

