-- ==== Sys2Proof/Machine/Messages.lean ====
section
/-! DEFINITION. The payload rows: each message is one ENCODE or DECODE request with the payload its rule gives
(30_encoding.md R55, 45_payload_layouts.md R83). -/

namespace Sys2Proof.Machine

/-- RDCTRL_REQ (45_payload_layouts.md R85). -/
def execRdctrlReq (addr : Addr) (id : Byte) (s : State) : Host.Outcome State Fault Refusal :=
  .next (s.encodeOp addr (rdctrlPayload id))

/-- RDCTRL_REPLY (R86, R94): the reply frame that carries the layout, decoded with `max_len = 8` (log 10). -/
def execRdctrlReply (addr : Addr) (validity id reserved : Byte) (maximum current : Half) (s : State) :
    Host.Outcome State Fault Refusal :=
  .next (s.decodeOp addr Config.controlReplyBound
    (replyImage addr (rdctrlReplyPayload validity id reserved maximum current)))

/-- WRCTRL (R87). -/
def execWrctrl (addr : Addr) (id : Byte) (value : Half) (s : State) : Host.Outcome State Fault Refusal :=
  .next (s.encodeOp addr (wrctrlPayload id value))

/-- SAVE (R88). -/
def execSave (addr : Addr) (s : State) : Host.Outcome State Fault Refusal :=
  .next (s.encodeOp addr savePayload)

/-- CAPS_REQ (R89). -/
def execCapsReq (addr : Addr) (offset : Half) (s : State) : Host.Outcome State Fault Refusal :=
  .next (s.encodeOp addr (capsPayload offset))

/-- CAPS_REPLY (R90): the reply frame that carries the layout, decoded with the requester's bound (log 10). -/
def execCapsReply (addr : Addr) (maxLen : Nat) (offset : Half) (data : List Byte) (s : State) :
    Host.Outcome State Fault Refusal :=
  .next (s.decodeOp addr maxLen (replyImage addr (capsReplyPayload offset data)))

/-- PRESENCE (R91): framed as any other payload (log 11). -/
def execPresence (addr : Addr) (rest : List Byte) (s : State) : Host.Outcome State Fault Refusal :=
  .next (s.encodeOp addr (presencePayload rest))

/-- BARE (R92). -/
def execBare (addr : Addr) (op : Byte) (s : State) : Host.Outcome State Fault Refusal :=
  .next (s.encodeOp addr (barePayload op))

end Sys2Proof.Machine
end

