-- ==== Sys2Proof/Machine/Dispatch.lean ====
section
/-! DEFINITION. One arm for each instruction. -/

namespace Sys2Proof.Machine

/-- The meaning of an instruction. -/
def exec (i : Instr) (s : State) : Host.Outcome State Fault Refusal :=
  match i with
  | .encode addr payload => Sys2Proof.Machine.execEncode addr payload s
  | .decode addr maxLen rx => Sys2Proof.Machine.execDecode addr maxLen rx s
  | .reservedCmd00 => Sys2Proof.Machine.execReservedCmd00 s
  | .reservedCmd11 => Sys2Proof.Machine.execReservedCmd11 s
  | .txHdr addr _ payload => Sys2Proof.Machine.execTxHdr addr payload s
  | .rxBusy51 addr maxLen b1 rest => Sys2Proof.Machine.execRxBusy51 addr maxLen b1 rest s
  | .rxBusyFF addr maxLen b1 rest => Sys2Proof.Machine.execRxBusyFF addr maxLen b1 rest s
  | .rxAddrMismatch addr maxLen b0 b1 rest => Sys2Proof.Machine.execRxAddrMismatch addr maxLen b0 b1 rest s
  | .rxMissingTag addr maxLen low rest => Sys2Proof.Machine.execRxMissingTag addr maxLen low rest s
  | .rxReplyHdr addr maxLen length rest => Sys2Proof.Machine.execRxReplyHdr addr maxLen length rest s
  | .rdctrlReq addr id => Sys2Proof.Machine.execRdctrlReq addr id s
  | .rdctrlReply addr validity id reserved maximum current => Sys2Proof.Machine.execRdctrlReply addr validity id reserved maximum current s
  | .wrctrl addr id value => Sys2Proof.Machine.execWrctrl addr id value s
  | .save addr => Sys2Proof.Machine.execSave addr s
  | .capsReq addr offset => Sys2Proof.Machine.execCapsReq addr offset s
  | .capsReply addr maxLen offset data => Sys2Proof.Machine.execCapsReply addr maxLen offset data s
  | .presence addr rest => Sys2Proof.Machine.execPresence addr rest s
  | .bare addr op => Sys2Proof.Machine.execBare addr op s

end Sys2Proof.Machine
end

