-- ==== Sys2Proof/Machine/Step.lean ====
section
/-! DEFINITION. One step: the next thing the outside has done is taken, and a request is run whole. -/

namespace Sys2Proof.Machine

/-- One step (00_scope.md R2, 20_memory.md R35, R38). With nothing presented the codec is idle and nothing changes (that
the response already given stays to be seen is the model's choice, log 7, log 14); a
request that reset interrupts is discarded (70_reset_and_hazards.md R106, R107; log 7, log 8). No step stops
(60_exceptions.md R105). -/
def step (s : State) : Host.Outcome State Fault Refusal :=
  match s.inputs with
  | [] => .next s
  | .reset :: rest => .next (s.withInputs rest).resetPulse
  | .resetDuring _ :: rest => .next (s.withInputs rest).resetPulse
  | .request r :: rest => exec (decode r) (s.withInputs rest)

/-- The state in which the request with the selecting bits `w` is the next one presented (log 7). -/
def State.withFetchWord (s : State) (nbits w : Nat) : State :=
  s.withInputs (.request (tableRequest nbits w) :: s.inputs)

end Sys2Proof.Machine
end

