-- ==== Sys2Proof/Safety.lean ====
section
/-! DEFINITION. The terms that claims use: the response as a function of the request alone, the responses of a run, what a
legal response is, and the invariant of the state. -/

namespace Sys2Proof.Machine

/-- The response to ENCODE as a function (40_encode.md R56 "Equivalently, as a function"). -/
def encodeAnswer (addr : Addr) (payload : List Byte) : Response :=
  if payload.length ≤ 127 then
    let body := 0x51#8 :: (0x80#8 ||| BitVec.ofNat 8 payload.length) :: payload
    ⟨.ok, body ++ [fold (addr.setWidth 8 <<< 1) body], []⟩
  else ⟨.payloadTooLarge, [], []⟩

/-- The response to DECODE as a function of the request and `RX_BUF_SIZE`: the first check that fails, in the order of
60_exceptions.md R97. -/
def decodeAnswer (rxBufSize : Nat) (addr : Addr) (maxLen : Nat) : List Byte → Response
  | b0 :: b1 :: b2 :: rest =>
    let rx := b0 :: b1 :: b2 :: rest
    let length := (b1 &&& 0x7F#8).toNat
    if rxBufSize < rx.length then ⟨.badRequest, [], []⟩
    else if b0 = 0x51#8 ∨ b0 = 0xFF#8 then ⟨.busy, [], []⟩
    else if b0 ≠ addr.setWidth 8 <<< 1 then ⟨.addressMismatch, [], rx⟩
    else if b1.getLsbD 7 = false then ⟨.missingTag, [], rx⟩
    else if maxLen < length ∨ rxBufSize < length then ⟨.lengthOverflow, [], rx⟩
    else if rx.length < length + 3 then ⟨.lengthOverflow, [], rx⟩
    else if fold 0x50#8 (rx.take (length + 3)) ≠ 0#8 then ⟨.checksumMismatch, [], rx⟩
    else ⟨.ok, (b2 :: rest).take length, []⟩
  | _ => ⟨.badRequest, [], []⟩

/-- The response to an instruction as a function of the instruction and `RX_BUF_SIZE` (10_state.md R13, R21). -/
def answer (rxBufSize : Nat) : Instr → Response
  | .encode addr payload => encodeAnswer addr payload
  | .decode addr maxLen rx => decodeAnswer rxBufSize addr maxLen rx
  | .reservedCmd00 => ⟨.badRequest, [], []⟩
  | .reservedCmd11 => ⟨.badRequest, [], []⟩
  | .txHdr addr _ payload => encodeAnswer addr payload
  | .rxBusy51 addr maxLen b1 rest => decodeAnswer rxBufSize addr maxLen (0x51#8 :: b1 :: rest)
  | .rxBusyFF addr maxLen b1 rest => decodeAnswer rxBufSize addr maxLen (0xFF#8 :: b1 :: rest)
  | .rxAddrMismatch addr maxLen b0 b1 rest => decodeAnswer rxBufSize addr maxLen (b0 :: b1 :: rest)
  | .rxMissingTag addr maxLen low rest =>
    decodeAnswer rxBufSize addr maxLen (addressByte addr :: low.setWidth 8 :: rest)
  | .rxReplyHdr addr maxLen length rest =>
    decodeAnswer rxBufSize addr maxLen (addressByte addr :: packMarker length.toNat :: rest)
  | .rdctrlReq addr id => encodeAnswer addr (rdctrlPayload id)
  | .rdctrlReply addr validity id reserved maximum current =>
    decodeAnswer rxBufSize addr 8 (replyImage addr (rdctrlReplyPayload validity id reserved maximum current))
  | .wrctrl addr id value => encodeAnswer addr (wrctrlPayload id value)
  | .save addr => encodeAnswer addr savePayload
  | .capsReq addr offset => encodeAnswer addr (capsPayload offset)
  | .capsReply addr maxLen offset data =>
    decodeAnswer rxBufSize addr maxLen (replyImage addr (capsReplyPayload offset data))
  | .presence addr rest => encodeAnswer addr (presencePayload rest)
  | .bare addr op => encodeAnswer addr (barePayload op)

/-- The next step takes a request, and so gives a response (20_memory.md R35: one request, one response). An idle step
and a pulse of reset take none. -/
def State.takesRequest (s : State) : Bool :=
  match s.inputs with
  | .request _ :: _ => true
  | .reset :: _ => false
  | .resetDuring _ :: _ => false
  | [] => false

/-- The responses given by the next `k` steps, in order (95_test_vectors.md section 5: what a program produces). A step
that takes no request adds none: an idle step leaves the response already given in `response`, which is the model's
choice (log 7, log 14), and does not give it again. No step faults or is refused, and the list would end there. -/
def responses : Nat → State → List Response
  | 0, _ => []
  | k + 1, s =>
    match step s with
    | .next t => (if s.takesRequest then t.response.toList else []) ++ responses k t
    | .fault _ => []
    | .refused _ => []

/-- The response of an outcome, if there is a next state. -/
def responseOf : Host.Outcome State Fault Refusal → Option Response
  | .next t => t.response
  | .fault _ => none
  | .refused _ => none

/-- A response has no output unless its status is OK, diagnostic bytes exactly for the four MalformedFrame statuses, an
output no longer than the largest frame, and never more diagnostic bytes than the receive buffer holds (10_state.md
R16, R18; 60_exceptions.md R104; 00_scope.md R10). -/
def Response.legal (rxBufSize : Nat) (r : Response) : Prop :=
  (r.status ≠ .ok → r.out = []) ∧
  (r.status.errorClass = some .malformedFrame → 3 ≤ r.diag.length) ∧
  (r.status.errorClass ≠ some .malformedFrame → r.diag = []) ∧
  r.out.length ≤ 130 ∧ r.diag.length ≤ rxBufSize

/-- What holds of every state of the block: the buffers have their sizes (00_scope.md R9, 10_state.md R19, R20) and a
pending response is legal. -/
def State.Inv (s : State) : Prop :=
  3 ≤ s.rxBufSize ∧ s.txb.length = 130 ∧ s.rxb.length ≤ s.rxBufSize ∧
  ∀ r, s.response = some r → r.legal s.rxBufSize

/-- What outlives an operation: what the outside has still to present, and the construction-time parameter. Nothing else
of the state does (10_state.md R13). -/
def State.SameOutside (s t : State) : Prop := t.inputs = s.inputs ∧ t.rxBufSize = s.rxBufSize

/-- The instructions whose operation is ENCODE (40_encode.md R56; 30_encoding.md R40, R55). -/
def encodes : Instr → Bool
  | .encode _ _ => true
  | .txHdr _ _ _ => true
  | .rdctrlReq _ _ => true
  | .wrctrl _ _ _ => true
  | .save _ => true
  | .capsReq _ _ => true
  | .presence _ _ => true
  | .bare _ _ => true
  | .decode _ _ _ => false
  | .rxBusy51 _ _ _ _ => false
  | .rxBusyFF _ _ _ _ => false
  | .rxAddrMismatch _ _ _ _ _ => false
  | .rxMissingTag _ _ _ _ => false
  | .rxReplyHdr _ _ _ _ => false
  | .rdctrlReply _ _ _ _ _ _ => false
  | .capsReply _ _ _ _ => false
  | .reservedCmd00 => false
  | .reservedCmd11 => false

end Sys2Proof.Machine
end

