-- ==== Sys2Proof/Certificates/Slice0/Obligations.lean ====
section
/-! DEFINITION. The statements for the provers. The specification's numbers stand here as literals; `a.setWidth 8 <<< 1`
is `addr << 1` (30_encoding.md R43). `s.beginOp` is the state when the operation begins: its transient registers hold
free values, because none keeps a value from an earlier operation (10_state.md R13; log 5). A register that an operation
does not write is therefore compared with `s.beginOp`, and what does outlive an operation with `s`. -/

open Sys2Proof Sys2Proof.Machine

/-- 40_encode.md R58 to R61, 30_encoding.md R40: a payload of at most 127 bytes is answered with the frame. -/
def Obligations.EncodeAnswersOutboundFrame : Prop :=
  ∀ (s : State) (a : Addr) (p : List Byte), p.length ≤ 127 →
    ∃ t, exec (.encode a p) s = .next t ∧
      t.response = some ⟨.ok,
        0x51#8 :: (0x80#8 ||| BitVec.ofNat 8 p.length) :: p ++
          [fold (a.setWidth 8 <<< 1) (0x51#8 :: (0x80#8 ||| BitVec.ofNat 8 p.length) :: p)], []⟩

/-- 10_state.md R19, 20_memory.md R29, 40_encode.md R62: the frame stands in `TXB`, indices above `Lp + 2` and the
receive side are not written, `ACC` holds the checksum. -/
def Obligations.EncodeWritesOnlyItsFrameBytes : Prop :=
  ∀ (s : State) (a : Addr) (p : List Byte), p.length ≤ 127 →
    ∃ t r, exec (.encode a p) s = .next t ∧ t.response = some r ∧
      r.out.length = p.length + 3 ∧ t.txb.take (p.length + 3) = r.out ∧ r.out[p.length + 2]? = some t.acc ∧
      (∀ i, p.length + 3 ≤ i → t.txb[i]? = s.beginOp.txb[i]?) ∧ t.txb.length = 130 ∧
      t.rxb = s.beginOp.rxb ∧ t.declLen = s.beginOp.declLen ∧ State.SameOutside s t

/-- 40_encode.md R57. -/
def Obligations.EncodeTooLongWritesNoFrameByte : Prop :=
  ∀ (s : State) (a : Addr) (p : List Byte), 127 < p.length →
    ∃ t, exec (.encode a p) s = .next t ∧ t.response = some ⟨.payloadTooLarge, [], []⟩ ∧
      t.txb = s.beginOp.txb ∧ t.rxb = s.beginOp.rxb ∧ t.acc = s.beginOp.acc ∧ t.declLen = s.beginOp.declLen ∧
      State.SameOutside s t

/-- 40_encode.md R63: both forms of the outbound invariant. -/
def Obligations.OutboundFrameFoldsToZero : Prop :=
  ∀ (s : State) (a : Addr) (p : List Byte), p.length ≤ 127 →
    ∃ t r, exec (.encode a p) s = .next t ∧ t.response = some r ∧ r.status = .ok ∧
      fold (a.setWidth 8 <<< 1) r.out = 0x00#8 ∧ fold 0x00#8 r.out = a.setWidth 8 <<< 1 ∧
      (fold 0x00#8 r.out = 0x00#8 ↔ a = 0x00#7)

/-- 40_encode.md R64, for the frame's own address and every other one. -/
def Obligations.DecodeOfOutboundFrameIsBusy : Prop :=
  ∀ (s u : State) (a b : Addr) (p : List Byte) (m : Nat), p.length ≤ 127 → p.length + 3 ≤ u.rxBufSize →
    ∃ t r v, exec (.encode a p) s = .next t ∧ t.response = some r ∧ r.status = .ok ∧
      exec (.decode b m r.out) u = .next v ∧ v.response = some ⟨.busy, [], []⟩

/-- TX_HDR gives the frame whose first two bytes are the header it names (30_encoding.md R40, R42, R44). That the row is
presented as an instruction, and runs ENCODE of as many payload bytes as its header announces, is the model's choice
(log 2, log 9) and no rule of the specification. -/
def Obligations.TxHeaderGivesFrameWithThatHeader : Prop :=
  ∀ (s : State) (a : Addr) (l : Len) (p : List Byte), p.length = l.toNat →
    ∃ t r, exec (.txHdr a l p) s = .next t ∧ t.response = some r ∧ r.status = .ok ∧ r.diag = [] ∧
      r.out.length = l.toNat + 3 ∧ r.out.take 2 = [0x51#8, 0x80#8 ||| l.setWidth 8] ∧ (r.out.drop 2).take l.toNat = p ∧
      r.out[l.toNat + 2]? = some (fold (a.setWidth 8 <<< 1) (r.out.take (l.toNat + 2)))

/-- 30_encoding.md R48: the length of a frame is decided by its byte 1 alone, outbound and inbound. -/
def Obligations.FrameLengthIsSetByMarker : Prop :=
  ∀ (s : State) (a : Addr) (m : Nat) (p rx : List Byte), p.length ≤ 127 →
    (∃ t r b, exec (.encode a p) s = .next t ∧ t.response = some r ∧ r.out[1]? = some b ∧
      frameLength b = some r.out.length) ∧
    (∃ t r, exec (.decode a m rx) s = .next t ∧ t.response = some r ∧
      (r.status = .ok → ∃ b, rx[1]? = some b ∧ frameLength b = some (r.out.length + 3) ∧ r.out.length + 3 ≤ rx.length))

/-- 41_decode.md R66: nothing else is done. -/
def Obligations.DecodeOutOfBoundsIsBadRequest : Prop :=
  ∀ (s : State) (a : Addr) (m : Nat) (rx : List Byte), (rx.length < 3 ∨ s.rxBufSize < rx.length) →
    ∃ t, exec (.decode a m rx) s = .next t ∧ t.response = some ⟨.badRequest, [], []⟩ ∧
      t.acc = s.beginOp.acc ∧ t.txb = s.beginOp.txb ∧ t.rxb = s.beginOp.rxb ∧ t.declLen = s.beginOp.declLen ∧
      State.SameOutside s t

/-- 41_decode.md R67, whatever the other bytes are: neither the length is set nor the fold computed. -/
def Obligations.DecodeBusyBeforeEveryFrameCheck : Prop :=
  ∀ (s : State) (a : Addr) (m : Nat) (rx : List Byte), 3 ≤ rx.length → rx.length ≤ s.rxBufSize →
    (rx[0]? = some 0x51#8 ∨ rx[0]? = some 0xFF#8) →
    ∃ t, exec (.decode a m rx) s = .next t ∧ t.response = some ⟨.busy, [], []⟩ ∧
      t.acc = s.beginOp.acc ∧ t.declLen = s.beginOp.declLen

/-- 41_decode.md R68, whatever the bytes after the first are. -/
def Obligations.DecodeWrongAddressIsMismatch : Prop :=
  ∀ (s : State) (a : Addr) (m : Nat) (rx : List Byte) (b0 : Byte), 3 ≤ rx.length → rx.length ≤ s.rxBufSize →
    rx[0]? = some b0 → b0 ≠ 0x51#8 → b0 ≠ 0xFF#8 → b0 ≠ a.setWidth 8 <<< 1 →
    ∃ t, exec (.decode a m rx) s = .next t ∧ t.response = some ⟨.addressMismatch, [], rx⟩ ∧
      t.acc = s.beginOp.acc ∧ t.declLen = s.beginOp.declLen

/-- 41_decode.md R69, whatever the length field and the later bytes are. -/
def Obligations.DecodeClearTagIsMissingTag : Prop :=
  ∀ (s : State) (a : Addr) (m : Nat) (rx : List Byte) (b1 : Byte), 3 ≤ rx.length → rx.length ≤ s.rxBufSize →
    rx[0]? = some (a.setWidth 8 <<< 1) → rx[1]? = some b1 → b1.getLsbD 7 = false →
    ∃ t, exec (.decode a m rx) s = .next t ∧ t.response = some ⟨.missingTag, [], rx⟩ ∧
      t.acc = s.beginOp.acc ∧ t.declLen = s.beginOp.declLen

/-- 41_decode.md R71 and R72: each bound on the declared length, before the fold. -/
def Obligations.DecodeLongLengthIsOverflow : Prop :=
  ∀ (s : State) (a : Addr) (m : Nat) (rx : List Byte) (l : Len), 3 ≤ rx.length → rx.length ≤ s.rxBufSize →
    rx[0]? = some (a.setWidth 8 <<< 1) → rx[1]? = some (0x80#8 ||| l.setWidth 8) →
    (m < l.toNat ∨ s.rxBufSize < l.toNat ∨ rx.length < l.toNat + 3) →
    ∃ t, exec (.decode a m rx) s = .next t ∧ t.response = some ⟨.lengthOverflow, [], rx⟩ ∧
      t.declLen = l ∧ t.acc = s.beginOp.acc

/-- 41_decode.md R73 to R75: within the bounds (equal to either passes) the fold decides, and the payload is delivered. -/
def Obligations.DecodeFoldDecidesPayload : Prop :=
  ∀ (s : State) (a : Addr) (m : Nat) (rx : List Byte) (l : Len), rx.length ≤ s.rxBufSize →
    rx[0]? = some (a.setWidth 8 <<< 1) → rx[1]? = some (0x80#8 ||| l.setWidth 8) →
    l.toNat ≤ m → l.toNat + 3 ≤ rx.length →
    ∃ t, exec (.decode a m rx) s = .next t ∧ t.declLen = l ∧ t.rxb = rx ∧
      t.acc = fold 0x50#8 (rx.take (l.toNat + 3)) ∧
      (t.acc ≠ 0x00#8 → t.response = some ⟨.checksumMismatch, [], rx⟩) ∧
      (t.acc = 0x00#8 → t.response = some ⟨.ok, (rx.drop 2).take l.toNat, []⟩ ∧ ((rx.drop 2).take l.toNat).length = l.toNat)

/-- 41_decode.md R76 and R78: what a DECODE delivers beside its status. -/
def Obligations.DecodeFailureGivesNoPayload : Prop :=
  ∀ (s : State) (a : Addr) (m : Nat) (rx : List Byte),
    ∃ t r, exec (.decode a m rx) s = .next t ∧ t.response = some r ∧ r.status ≠ .payloadTooLarge ∧
      (r.status ≠ .ok → r.out = []) ∧
      ((r.status = .addressMismatch ∨ r.status = .missingTag ∨ r.status = .lengthOverflow ∨ r.status = .checksumMismatch) →
        r.diag = rx) ∧
      ((r.status = .busy ∨ r.status = .badRequest ∨ r.status = .ok) → r.diag = [])

/-- 41_decode.md R77: two buffers that begin with the same frame and differ in what follows it. -/
def Obligations.DecodeIgnoresTrailingBytes : Prop :=
  ∀ (s : State) (a : Addr) (m : Nat) (f x y : List Byte) (b1 : Byte),
    f[1]? = some b1 → f.length = (b1 &&& 0x7F#8).toNat + 3 →
    (f ++ x).length ≤ s.rxBufSize → (f ++ y).length ≤ s.rxBufSize →
    ∃ t u r q, exec (.decode a m (f ++ x)) s = .next t ∧ exec (.decode a m (f ++ y)) s = .next u ∧
      t.response = some r ∧ u.response = some q ∧ r.status = q.status ∧ r.out = q.out ∧
      (r.diag = [] ∨ r.diag = f ++ x)

/-- 41_decode.md R80 (headline): DECODE answers OK with `p` exactly for a reply image of `p` with any tail, when `p` is no
longer than the bound. R79 defines the image for at most 127 bytes. -/
def Obligations.DecodeAcceptsExactlyReplyImages : Prop :=
  ∀ (s : State) (a : Addr) (m : Nat) (rx p : List Byte), 3 ≤ rx.length → rx.length ≤ s.rxBufSize →
    ∃ t, exec (.decode a m rx) s = .next t ∧
      (t.response = some ⟨.ok, p, []⟩ ↔
        (p.length ≤ 127 ∧ ∃ tail, rx = (a.setWidth 8 <<< 1) :: (0x80#8 ||| BitVec.ofNat 8 p.length) :: p ++
          [fold 0x50#8 ((a.setWidth 8 <<< 1) :: (0x80#8 ||| BitVec.ofNat 8 p.length) :: p)] ++ tail) ∧
        p.length ≤ m)

/-- 41_decode.md R81: the reply image and ENCODE's frame differ in byte 0 and in the checksum, by `0x01`. -/
def Obligations.ReplyImageDiffersInTwoBytes : Prop :=
  ∀ (s : State) (a : Addr) (p : List Byte), p.length ≤ 127 →
    ∃ t r, exec (.encode a p) s = .next t ∧ t.response = some r ∧ r.status = .ok ∧
      r.out.length = (replyImage a p).length ∧
      (replyImage a p)[0]? = some (a.setWidth 8 <<< 1) ∧ r.out[0]? = some 0x51#8 ∧ a.setWidth 8 <<< 1 ≠ 0x51#8 ∧
      (∀ i, 1 ≤ i → i ≤ p.length + 1 → (replyImage a p)[i]? = r.out[i]?) ∧
      ∃ c, r.out[p.length + 2]? = some c ∧ (replyImage a p)[p.length + 2]? = some (c ^^^ 0x01#8)

/-- 41_decode.md R82: what one changed byte of a valid buffer leads to, index by index. -/
def Obligations.SingleByteErrorIsClassified : Prop :=
  ∀ (s : State) (a : Addr) (m : Nat) (p tail : List Byte) (j : Nat) (v : Byte),
    p.length ≤ 127 → p.length ≤ m → (replyImage a p ++ tail).length ≤ s.rxBufSize →
    j < (replyImage a p ++ tail).length → (replyImage a p ++ tail)[j]? ≠ some v →
    ∃ t, exec (.decode a m ((replyImage a p ++ tail).set j v)) s = .next t ∧
      (j = 0 → (v = 0x51#8 ∨ v = 0xFF#8) → t.response = some ⟨.busy, [], []⟩) ∧
      (j = 0 → v ≠ 0x51#8 → v ≠ 0xFF#8 →
        t.response = some ⟨.addressMismatch, [], (replyImage a p ++ tail).set j v⟩) ∧
      (j = 1 → v.getLsbD 7 = false → t.response = some ⟨.missingTag, [], (replyImage a p ++ tail).set j v⟩) ∧
      (∀ l : Len, j = 1 → v = 0x80#8 ||| l.setWidth 8 →
        (m < l.toNat ∨ (replyImage a p ++ tail).length < l.toNat + 3) →
        t.response = some ⟨.lengthOverflow, [], (replyImage a p ++ tail).set j v⟩) ∧
      (∀ l : Len, j = 1 → v = 0x80#8 ||| l.setWidth 8 →
        l.toNat ≤ m → l.toNat + 3 ≤ (replyImage a p ++ tail).length →
        t.response = some
          (if fold 0x50#8 (((replyImage a p ++ tail).set j v).take (l.toNat + 3)) = 0x00#8 then
            ⟨.ok, (((replyImage a p ++ tail).set j v).drop 2).take l.toNat, []⟩
          else ⟨.checksumMismatch, [], (replyImage a p ++ tail).set j v⟩)) ∧
      (2 ≤ j → j ≤ p.length + 2 → t.response = some ⟨.checksumMismatch, [], (replyImage a p ++ tail).set j v⟩) ∧
      (p.length + 3 ≤ j → t.response = some ⟨.ok, p, []⟩)

/-- 41_decode.md R82: a changed length marker may still be answered OK, with another payload. -/
def Obligations.ChangedLengthMayDecodeSilently : Prop :=
  ∀ s : State, 5 ≤ s.rxBufSize →
    ∃ t u, exec (.decode 0x37#7 8 [0x6E#8, 0x82#8, 0xBF#8, 0x00#8, 0x03#8]) s = .next t ∧
      t.response = some ⟨.ok, [0xBF#8, 0x00#8], []⟩ ∧
      exec (.decode 0x37#7 8 [0x6E#8, 0x81#8, 0xBF#8, 0x00#8, 0x03#8]) s = .next u ∧
      u.response = some ⟨.ok, [0xBF#8], []⟩

/-- 10_state.md R20, 20_memory.md R28 to R30: a DECODE leaves `TXB` as it was, and past the request bounds `RXB` holds the
received bytes. -/
def Obligations.DecodeWritesOnlyReceiveSide : Prop :=
  ∀ (s : State) (a : Addr) (m : Nat) (rx : List Byte),
    ∃ t, exec (.decode a m rx) s = .next t ∧ t.txb = s.beginOp.txb ∧
      (3 ≤ rx.length → rx.length ≤ s.rxBufSize → t.rxb = rx) ∧ State.SameOutside s t

/-- 30_encoding.md R51 rows 1 and 2: a received buffer of class Busy. -/
def Obligations.BusyHeadersAnswerBusy : Prop :=
  ∀ (s : State) (a : Addr) (m : Nat) (b1 : Byte) (rest : List Byte), 1 ≤ rest.length → rest.length + 2 ≤ s.rxBufSize →
    (∃ t, exec (.rxBusy51 a m b1 rest) s = .next t ∧ t.response = some ⟨.busy, [], []⟩ ∧ t.rxb = 0x51#8 :: b1 :: rest) ∧
    (∃ t, exec (.rxBusyFF a m b1 rest) s = .next t ∧ t.response = some ⟨.busy, [], []⟩ ∧ t.rxb = 0xFF#8 :: b1 :: rest)

/-- 30_encoding.md R51 row 3: a received buffer whose byte 0 is neither busy nor the address byte. -/
def Obligations.MismatchHeaderAnswersMismatch : Prop :=
  ∀ (s : State) (a : Addr) (m : Nat) (b0 b1 : Byte) (rest : List Byte), 1 ≤ rest.length → rest.length + 2 ≤ s.rxBufSize →
    (Instr.rxAddrMismatch a m b0 b1 rest).wellFormed = true →
    ∃ t, exec (.rxAddrMismatch a m b0 b1 rest) s = .next t ∧
      t.response = some ⟨.addressMismatch, [], b0 :: b1 :: rest⟩ ∧ t.rxb = b0 :: b1 :: rest

/-- 30_encoding.md R51 row 4: a received buffer whose byte 1 has the tag bit clear. -/
def Obligations.UntaggedHeaderAnswersMissingTag : Prop :=
  ∀ (s : State) (a : Addr) (m : Nat) (low : Len) (rest : List Byte), 1 ≤ rest.length → rest.length + 2 ≤ s.rxBufSize →
    ∃ t, exec (.rxMissingTag a m low rest) s = .next t ∧
      t.response = some ⟨.missingTag, [], (a.setWidth 8 <<< 1) :: low.setWidth 8 :: rest⟩

/-- 30_encoding.md R51 row 5: a received buffer with a frame header goes on to the length checks and the checksum. -/
def Obligations.FrameHeaderGoesOnToChecks : Prop :=
  ∀ (s : State) (a : Addr) (m : Nat) (l : Len) (rest : List Byte), 1 ≤ rest.length → rest.length + 2 ≤ s.rxBufSize →
    ∃ t, exec (.rxReplyHdr a m l rest) s = .next t ∧ t.declLen = l ∧
      ((m < l.toNat ∨ rest.length < l.toNat + 1) → t.response =
        some ⟨.lengthOverflow, [], (a.setWidth 8 <<< 1) :: (0x80#8 ||| l.setWidth 8) :: rest⟩) ∧
      (l.toNat ≤ m → l.toNat + 1 ≤ rest.length →
        fold 0x50#8 ((a.setWidth 8 <<< 1) :: (0x80#8 ||| l.setWidth 8) :: rest.take (l.toNat + 1)) ≠ 0x00#8 →
        t.response = some ⟨.checksumMismatch, [], (a.setWidth 8 <<< 1) :: (0x80#8 ||| l.setWidth 8) :: rest⟩) ∧
      (l.toNat ≤ m → l.toNat + 1 ≤ rest.length →
        fold 0x50#8 ((a.setWidth 8 <<< 1) :: (0x80#8 ||| l.setWidth 8) :: rest.take (l.toNat + 1)) = 0x00#8 →
        t.response = some ⟨.ok, rest.take l.toNat, []⟩)

/-- 41_decode.md R66 for the header rows: a buffer too short or too long for the block is a bad request, whatever its
class. -/
def Obligations.HeadersOutOfBoundsAreBadRequest : Prop :=
  ∀ (s : State) (a : Addr) (m : Nat) (b0 b1 : Byte) (l : Len) (rest : List Byte),
    (rest = [] ∨ s.rxBufSize < rest.length + 2) →
    ∀ i ∈ [Instr.rxBusy51 a m b1 rest, .rxBusyFF a m b1 rest, .rxAddrMismatch a m b0 b1 rest,
        .rxMissingTag a m l rest, .rxReplyHdr a m l rest],
      ∃ t, exec i s = .next t ∧ t.response = some ⟨.badRequest, [], []⟩ ∧ t.rxb = s.beginOp.rxb

/-- 30_encoding.md R50: a reserved selector, whatever the request's other fields are. -/
def Obligations.ReservedSelectorIsBadRequest : Prop :=
  ∀ (s : State) (a : Addr) (m : Nat) (d : List Byte),
    (decode (.port 0b00#2 a m d) = .reservedCmd00 ∧ decode (.port 0b11#2 a m d) = .reservedCmd11) ∧
    ∀ i ∈ [Instr.reservedCmd00, .reservedCmd11],
      ∃ t, exec i s = .next t ∧ t.response = some ⟨.badRequest, [], []⟩ ∧ t.acc = s.beginOp.acc ∧
        t.txb = s.beginOp.txb ∧ t.rxb = s.beginOp.rxb ∧ t.declLen = s.beginOp.declLen ∧ State.SameOutside s t

/-- 45_payload_layouts.md R85: RDCTRL_REQ frames `[0x01, id]`. -/
def Obligations.ReadControlRequestIsFramed : Prop :=
  ∀ (s : State) (a : Addr) (id : Byte),
    ∃ t, exec (.rdctrlReq a id) s = .next t ∧
      t.response = some ⟨.ok, [0x51#8, 0x82#8, 0x01#8, id, a.setWidth 8 <<< 1 ^^^ 0xD2#8 ^^^ id], []⟩

/-- 45_payload_layouts.md R87, R84: WRCTRL frames `[0x03, id, highByte(value), lowByte(value)]`. -/
def Obligations.WriteControlIsFramedHighByteFirst : Prop :=
  ∀ (s : State) (a : Addr) (id : Byte) (value : Half),
    ∃ t hi lo, exec (.wrctrl a id value) s = .next t ∧ value.toNat = hi.toNat * 256 + lo.toNat ∧
      t.response = some ⟨.ok,
        [0x51#8, 0x84#8, 0x03#8, id, hi, lo, a.setWidth 8 <<< 1 ^^^ 0xD6#8 ^^^ id ^^^ hi ^^^ lo], []⟩

/-- 45_payload_layouts.md R88 and R92: SAVE frames `[0x0C]`, BARE frames `[op]`, every opcode alike. -/
def Obligations.BareCommandsAreFramed : Prop :=
  ∀ (s : State) (a : Addr) (op : Byte),
    (∃ t, exec (.bare a op) s = .next t ∧
      t.response = some ⟨.ok, [0x51#8, 0x81#8, op, a.setWidth 8 <<< 1 ^^^ 0xD0#8 ^^^ op], []⟩) ∧
    (∃ t, exec (.save a) s = .next t ∧
      t.response = some ⟨.ok, [0x51#8, 0x81#8, 0x0C#8, a.setWidth 8 <<< 1 ^^^ 0xDC#8], []⟩)

/-- 45_payload_layouts.md R89, R84: CAPS_REQ frames `[0xF3, highByte(offset), lowByte(offset)]`. -/
def Obligations.CapabilitiesRequestIsFramed : Prop :=
  ∀ (s : State) (a : Addr) (offset : Half),
    ∃ t hi lo, exec (.capsReq a offset) s = .next t ∧ offset.toNat = hi.toNat * 256 + lo.toNat ∧
      t.response = some ⟨.ok,
        [0x51#8, 0x83#8, 0xF3#8, hi, lo, a.setWidth 8 <<< 1 ^^^ 0x21#8 ^^^ hi ^^^ lo], []⟩

/-- 45_payload_layouts.md R91: PRESENCE is framed whatever follows the opcode (the model's presentation, log 11); with
more than 126 bytes after it the payload is too long. -/
def Obligations.PresenceCheckIsFramed : Prop :=
  ∀ (s : State) (a : Addr) (rest : List Byte),
    ∃ t, exec (.presence a rest) s = .next t ∧
      (rest.length ≤ 126 → t.response = some ⟨.ok,
        0x51#8 :: (0x80#8 ||| BitVec.ofNat 8 (rest.length + 1)) :: 0xF7#8 :: rest ++
          [fold (a.setWidth 8 <<< 1) (0x51#8 :: (0x80#8 ||| BitVec.ofNat 8 (rest.length + 1)) :: 0xF7#8 :: rest)], []⟩) ∧
      (126 < rest.length → t.response = some ⟨.payloadTooLarge, [], []⟩)

/-- 45_payload_layouts.md R86, R94, R84: the reply frame that carries a read-control reply decodes to its eight bytes,
each 16-bit field high byte first, and the layout reads them back. It has 11 bytes (the presentation is the model's,
log 10). -/
def Obligations.ReadControlReplyIsDelivered : Prop :=
  ∀ (s : State) (a : Addr) (validity id reserved : Byte) (maximum current : Half),
    ∃ t mh ml ch cl, exec (.rdctrlReply a validity id reserved maximum current) s = .next t ∧
      maximum.toNat = mh.toNat * 256 + ml.toNat ∧ current.toNat = ch.toNat * 256 + cl.toNat ∧
      (11 ≤ s.rxBufSize → t.response = some ⟨.ok, [0x02#8, validity, id, reserved, mh, ml, ch, cl], []⟩ ∧
        readControlReply [0x02#8, validity, id, reserved, mh, ml, ch, cl] =
          some ⟨0x02#8, validity, id, reserved, maximum, current⟩) ∧
      (s.rxBufSize < 11 → t.response = some ⟨.badRequest, [], []⟩)

/-- 45_payload_layouts.md R90, R84: the reply frame that carries a capabilities reply decodes to its payload when the
requester's bound admits it, the offset high byte first, and the layout reads it back; a reply with no data ends the
stream. When the bound does not admit it, the frame itself is the diagnostic (41_decode.md R71, R78). The presentation is
the model's (log 10). -/
def Obligations.CapabilitiesReplyIsDelivered : Prop :=
  ∀ (s : State) (a : Addr) (m : Nat) (offset : Half) (data : List Byte), data.length ≤ 124 →
    ∃ t oh ol, exec (.capsReply a m offset data) s = .next t ∧ offset.toNat = oh.toNat * 256 + ol.toNat ∧
      (data.length + 6 ≤ s.rxBufSize → data.length + 3 ≤ m →
        t.response = some ⟨.ok, 0xE3#8 :: oh :: ol :: data, []⟩ ∧
        readCapabilityChunk (0xE3#8 :: oh :: ol :: data) = some ⟨0xE3#8, offset, data⟩ ∧
        (terminalChunk (0xE3#8 :: oh :: ol :: data) = true ↔ data = [])) ∧
      (data.length + 6 ≤ s.rxBufSize → m < data.length + 3 →
        t.response = some ⟨.lengthOverflow, [],
          (a.setWidth 8 <<< 1) :: (0x80#8 ||| BitVec.ofNat 8 (data.length + 3)) :: 0xE3#8 :: oh :: ol :: data ++
            [fold 0x50#8
              ((a.setWidth 8 <<< 1) :: (0x80#8 ||| BitVec.ofNat 8 (data.length + 3)) :: 0xE3#8 :: oh :: ol :: data)]⟩) ∧
      (s.rxBufSize < data.length + 6 → t.response = some ⟨.badRequest, [], []⟩)

/-- The codec does with a header row or a payload row exactly what it does with the ENCODE or DECODE request the row is
notation for. 30_encoding.md R55 gives the expansion of its pseudo-operations alone. The expansions of TX_HDR, the
five RX rows, RDCTRL_REPLY, CAPS_REPLY and PRESENCE are the model's choice (log 2, log 9, log 10, log 11). -/
def Obligations.NotationRunsAsItsExpansion : Prop :=
  ∀ (i : Instr) (s : State), exec i s = exec i.expansion s ∧
    ((∃ a p, i.expansion = .encode a p) ∨ (∃ a m rx, i.expansion = .decode a m rx) ∨
      i = .reservedCmd00 ∨ i = .reservedCmd11)

/-- 10_state.md R16, 20_memory.md R36: every instruction, in every state, gives exactly one response, and two states that
agree on the receive buffer's size give the same one. -/
def Obligations.SameRequestGivesSameResponse : Prop :=
  ∀ (i : Instr) (s u : State), s.rxBufSize = u.rxBufSize →
    ∃ t v r, exec i s = .next t ∧ exec i u = .next v ∧ t.response = some r ∧ v.response = some r ∧
      State.SameOutside s t ∧ State.SameOutside u v

/-- 10_state.md R13: no transient register survives. Two states that differ in `ACC`, `TXB`, `RXB`, `L` or the previous
response have the same outcome (`opCount` is the model's counter of free values, log 5). -/
def Obligations.NoRegisterSurvivesAnOperation : Prop :=
  ∀ (i : Instr) (s u : State), s.inputs = u.inputs → s.rxBufSize = u.rxBufSize → s.opCount = u.opCount →
    ∃ t, exec i s = .next t ∧ exec i u = .next t

/-- 10_state.md R19, R20: an instruction whose operation is ENCODE leaves the receive side as it was, and every other one
leaves `TXB` as it was. -/
def Obligations.OperationsWriteOneSideOnly : Prop :=
  ∀ (i : Instr) (s : State),
    ∃ t, exec i s = .next t ∧ State.SameOutside s t ∧
      (encodes i = true → t.rxb = s.beginOp.rxb ∧ t.declLen = s.beginOp.declLen) ∧
      (encodes i = false → t.txb = s.beginOp.txb)

/-- 60_exceptions.md R95, 70_reset_and_hazards.md R110: the responses of a run are, one by one, what each
request would be answered alone; no failure leaves a trace. -/
def Obligations.RunAnswersEachRequestAlone : Prop :=
  ∀ (s : State) (is : List Instr) (later : List Input), (∀ i ∈ is, i.wellFormed = true) →
    s.inputs = is.map (fun i => .request (encode i)) ++ later →
    responses is.length s = is.map (answer s.rxBufSize)

/-- The invariant of the state (headline): buffer sizes and legal responses (00_scope.md R9, R10; 10_state.md R16, R18 to
R20). -/
def Obligations.StepKeepsBuffersAndResponsesLegal : Prop :=
  ∀ s t : State, s.Inv → step s = .next t → t.Inv

/-- 10_state.md R26, 70_reset_and_hazards.md R106: after reset, whatever the receive buffer's size, nothing is pending and
the codec is idle; the invariant holds. The transient registers' reset values are the model's choice (log 6) and nothing
is said of them beyond the invariant. -/
def Obligations.ResetIsIdleAndLegal : Prop :=
  3 ≤ State.reset.rxBufSize ∧ State.reset.Inv ∧ step State.reset = .next State.reset ∧
  ∀ n, 3 ≤ n → (State.resetWith n).Inv ∧ (State.resetWith n).response = none ∧ (State.resetWith n).inputs = []

/-- Decoding undoes encoding, for every well-formed instruction. -/
def Obligations.DecodeUndoesEncode : Prop := ∀ i : Instr, i.wellFormed = true → decode (encode i) = i

/-- Every request is a well-formed instruction (10_state.md R27), and one that has a row of its own, in a form other
than the codec's port, is presented in one way only (a request with no row's layout is the plain ENCODE or DECODE of the
bytes it presents, the model's choice, log 12). -/
def Obligations.EncodeUndoesDecode : Prop :=
  ∀ r : Request, (decode r).wellFormed = true ∧
    ((∀ c a m d, r ≠ .port c a m d) → (∀ a p, decode r ≠ .encode a p) → (∀ a m rx, decode r ≠ .decode a m rx) →
      encode (decode r) = r)

/-- The selector of a request of the codec's port decides its instruction (30_encoding.md R49, R50), the first two bytes
of a received buffer its class (R51). -/
def Obligations.EveryPortRequestDecodes : Prop :=
  ∀ (c : BitVec 2) (b0 b1 : Byte) (a : Addr) (m : Nat) (d : List Byte),
    ((c = 0b01#2 ∧ decode (.port c a m d) = .encode a d) ∨ (c = 0b10#2 ∧ decode (.port c a m d) = .decode a m d) ∨
      (c = 0b00#2 ∧ decode (.port c a m d) = .reservedCmd00) ∨ (c = 0b11#2 ∧ decode (.port c a m d) = .reservedCmd11)) ∧
    (b0 = 0x51#8 → decode (.inHdr (b0 ++ b1) a m d) = .rxBusy51 a m b1 d) ∧
    (b0 = 0xFF#8 → decode (.inHdr (b0 ++ b1) a m d) = .rxBusyFF a m b1 d) ∧
    (b0 ≠ 0x51#8 → b0 ≠ 0xFF#8 → b0 ≠ a.setWidth 8 <<< 1 →
      decode (.inHdr (b0 ++ b1) a m d) = .rxAddrMismatch a m b0 b1 d) ∧
    (b0 = a.setWidth 8 <<< 1 → b1.getLsbD 7 = false →
      decode (.inHdr (b0 ++ b1) a m d) = .rxMissingTag a m (b1.setWidth 7) d) ∧
    (b0 = a.setWidth 8 <<< 1 → b1.getLsbD 7 = true →
      decode (.inHdr (b0 ++ b1) a m d) = .rxReplyHdr a m (b1.setWidth 7) d)

/-- 00_scope.md R2: a step takes the next request presented and runs the instruction it is. -/
def Obligations.StepRunsDecodedInstruction : Prop :=
  ∀ (s : State) (r : Request) (rest : List Input) (i : Instr), s.inputs = .request r :: rest → decode r = i →
    step s = exec i (s.withInputs rest)

/-- What a step does when there is no request to run: idle, reset, a discarded operation (70_reset_and_hazards.md R106,
R107). Idling, that the response already given stays to be seen meanwhile, and the keeping of held requests are the
model's choice (log 7, log 14, log 8). -/
def Obligations.StepWithoutRequest : Prop :=
  ∀ (s : State) (rest : List Input) (r : Request),
    (s.inputs = [] → step s = .next s) ∧
    ((s.inputs = .reset :: rest ∨ s.inputs = .resetDuring r :: rest) →
      ∃ t, step s = .next t ∧ t.response = none ∧ t.inputs = rest ∧ t.rxBufSize = s.rxBufSize)

/-- Words written out from spec/opcode_table.json and 30_encoding.md R49, R51 decode to what they stand for. -/
def Obligations.TableWordsDecode : Prop :=
  decode (.port 0b01#2 0b0110111#7 0 [0x0C#8]) = .encode 0x37#7 [0x0C#8] ∧
  decode (.outHdr 0b0101000110000001#16 0x37#7 [0x0C#8]) = .txHdr 0x37#7 1#7 [0x0C#8] ∧
  decode (.inHdr 0b0110111010001000#16 0x37#7 8 []) = .rxReplyHdr 0x37#7 8 8#7 [] ∧
  decode (.outMsg 0b00000011#8 0x37#7 [0x10#8, 0x01#8, 0x32#8]) = .wrctrl 0x37#7 0x10#8 0x0132#16

/-- 10_state.md R27, 60_exceptions.md R105: no state stops the machine, and every request presented, whatever its form,
gets one response. -/
def Obligations.StepNeverStops : Prop :=
  ∀ s : State, ∃ t, step s = .next t ∧
    ∀ (r : Request) (rest : List Input), s.inputs = .request r :: rest → ∃ q, t.response = some q ∧ t.inputs = rest

/-- Whatever instruction a presented request is, it runs as the ENCODE or DECODE of the bytes presented: the payload to
send, the buffer received. That the forms other than the codec's port are presented so is the model's choice (log 2,
log 9, log 10, log 12). -/
def Obligations.EveryFormRunsItsBytes : Prop :=
  ∀ (s : State) (b0 b1 op : Byte) (a : Addr) (m : Nat) (d : List Byte),
    exec (decode (.outHdr (b0 ++ b1) a d)) s = exec (.encode a d) s ∧
    exec (decode (.inHdr (b0 ++ b1) a m d)) s = exec (.decode a m (b0 :: b1 :: d)) s ∧
    exec (decode (.outMsg op a d)) s = exec (.encode a (op :: d)) s ∧
    exec (decode (.inMsg a m d)) s = exec (.decode a m d) s ∧
    exec (decode (.bareMsg op a)) s = exec (.encode a [op]) s
end

