-- ==== Sys2Proof/Laws/Operands.lean ====
section
/-! SUPPORT. Laws of the fold, of the address byte and the length marker, and of 16-bit fields. -/

namespace Sys2Proof

/-- `Fold(Fold(i, xs), ys) = Fold(i, xs ++ ys)` (00_scope.md R12). -/
theorem fold_append (init : Byte) (xs ys : List Byte) : fold init (xs ++ ys) = fold (fold init xs) ys := by
  induction xs generalizing init with
  | nil => rfl
  | cons x xs ih => simp [fold, ih]

/-- A byte folded into the seed may as well be folded in at the end. -/
theorem fold_xor_init (a b : Byte) (xs : List Byte) : fold (a ^^^ b) xs = fold a xs ^^^ b := by
  induction xs generalizing a with
  | nil => rfl
  | cons x xs ih =>
    simp only [fold]
    rw [show a ^^^ b ^^^ x = a ^^^ x ^^^ b by ac_rfl, ih]

/-- The fold with a seed is the seed and the fold of the bytes alone. -/
theorem fold_eq_xor_fold_zero (a : Byte) (xs : List Byte) : fold a xs = a ^^^ fold 0#8 xs := by
  have h := fold_xor_init 0#8 a xs
  rw [BitVec.zero_xor] at h
  rw [h, BitVec.xor_comm]

/-- A frame that ends in its own fold folds to zero (30_encoding.md R46). -/
theorem fold_append_self (a : Byte) (xs : List Byte) : fold a (xs ++ [fold a xs]) = 0#8 := by
  simp [fold_append, fold]

/-- A frame folds to zero exactly when its last byte is the fold of the rest (30_encoding.md R46). -/
theorem fold_append_eq_zero_iff (a c : Byte) (xs : List Byte) : fold a (xs ++ [c]) = 0#8 ↔ c = fold a xs := by
  simp only [fold_append, fold, BitVec.xor_eq_zero_iff]
  exact eq_comm

/-- Changing one byte changes the fold by the difference of the two (41_decode.md R82). -/
theorem fold_set (a v : Byte) (xs : List Byte) (j : Nat) (h : j < xs.length) :
    fold a (xs.set j v) = fold a xs ^^^ (xs[j] ^^^ v) := by
  induction xs generalizing a j with
  | nil => simp at h
  | cons x xs ih =>
    cases j with
    | zero =>
      simp only [List.set_cons_zero, fold, List.getElem_cons_zero, fold_xor_init]
      rw [show fold a xs ^^^ x ^^^ (x ^^^ v) = fold a xs ^^^ v ^^^ (x ^^^ x) by ac_rfl]
      simp
    | succ j =>
      simp only [List.length_cons, Nat.add_lt_add_iff_right] at h
      simpa [fold] using ih (a ^^^ x) j h

/-- The address byte is even, so it is never a busy value (30_encoding.md R47). -/
theorem addressByte_not_busy (addr : Addr) :
    addressByte addr ≠ Config.busyA ∧ addressByte addr ≠ Config.busyB ∧ isBusy (addressByte addr) = false := by
  revert addr; decide

/-- The marker of a length has the tag bit. -/
theorem tagBit_packMarker (length : Len) : tagBit (packMarker length.toNat) = true := by
  revert length; decide

/-- The marker of a 7-bit length, as the specification writes it (30_encoding.md R44). -/
theorem packMarker_toNat (length : Len) : packMarker length.toNat = 0x80#8 ||| length.setWidth 8 := by
  revert length; decide

/-- The marker of a length declares that length (30_encoding.md R44, R45). -/
theorem declaredLength_packMarker (length : Len) : declaredLength (packMarker length.toNat) = length := by
  revert length; decide

/-- The same for a length given as a number. -/
theorem declaredLength_packMarker_nat {n : Nat} (h : n ≤ 127) :
    tagBit (packMarker n) = true ∧ (declaredLength (packMarker n)).toNat = n := by
  have e : (BitVec.ofNat 7 n).toNat = n := by simp; omega
  rw [← e]
  exact ⟨tagBit_packMarker _, by rw [declaredLength_packMarker]⟩

/-- A byte with the tag bit is the marker of the length it declares. -/
theorem packMarker_declaredLength (b : Byte) (h : tagBit b = true) :
    packMarker (declaredLength b).toNat = b := by
  revert b; decide

/-- A byte without the tag bit is the length it declares, widened. -/
theorem setWidth_declaredLength (b : Byte) (h : tagBit b = false) : (declaredLength b).setWidth 8 = b := by
  revert b; decide

/-- Seven bits widened have no tag bit, and declare themselves. -/
theorem tagBit_setWidth (low : Len) :
    tagBit (low.setWidth 8) = false ∧ declaredLength (low.setWidth 8) = low := by
  revert low; decide

/-- The high byte of two joined bytes (45_payload_layouts.md R84). -/
@[simp] theorem highByte_joinBytes (hi lo : Byte) : highByte (joinBytes hi lo) = hi := by
  apply BitVec.eq_of_getLsbD_eq
  intro i h
  have : 8 + i < 16 := by omega
  simp [highByte, joinBytes, h, this]

/-- The low byte of two joined bytes (R84). -/
@[simp] theorem lowByte_joinBytes (hi lo : Byte) : lowByte (joinBytes hi lo) = lo := by
  apply BitVec.eq_of_getLsbD_eq
  intro i h
  simp [lowByte, joinBytes, h]

/-- Splitting a 16-bit field and joining it again gives it back (R84). -/
@[simp] theorem joinBytes_highByte_lowByte (v : Half) : joinBytes (highByte v) (lowByte v) = v := by
  apply BitVec.eq_of_getLsbD_eq
  intro i h
  by_cases hi : i < 8
  · simp [highByte, lowByte, joinBytes, h, hi]
  · have : i - 8 < 8 := by omega
    have e : 8 + (i - 8) = i := by omega
    simp [highByte, lowByte, joinBytes, h, hi, this, e]

/-- Two bytes side by side, byte 0 in bits 15:8 (30_encoding.md R51). -/
theorem append_eq_joinBytes (hi lo : Byte) : (hi ++ lo : Half) = joinBytes hi lo := by
  apply BitVec.eq_of_toNat_eq
  rw [BitVec.toNat_append, joinBytes, BitVec.toNat_or, BitVec.toNat_shiftLeft,
    BitVec.toNat_setWidth_of_le (by decide), BitVec.toNat_setWidth_of_le (by decide)]
  congr 1
  have := hi.isLt
  rw [Nat.shiftLeft_eq]
  omega

/-- A reply frame is three bytes longer than its payload (00_scope.md R10). -/
@[simp] theorem replyImage_length (addr : Addr) (p : List Byte) : (replyImage addr p).length = p.length + 3 := by
  simp [replyImage]

/-- A reply image carries its payload (41_decode.md R79). -/
@[simp] theorem carriedPayload_replyImage (addr : Addr) (p : List Byte) : carriedPayload (replyImage addr p) = p := by
  simp [carriedPayload, replyImage]

/-- A reply's opcode, its payload's first byte, stands at index 2 (30_encoding.md R41, R53). -/
@[simp] theorem replyImage_opcode (addr : Addr) (op : Byte) (p : List Byte) :
    (replyImage addr (op :: p))[2]? = some op := rfl

end Sys2Proof
end

