-- ==== Sys2Proof/Laws/State.lean ====
section
/-! SUPPORT. For each update of the state, what each field holds after it. -/

namespace Sys2Proof.Machine

@[simp] theorem State.beginOp_inputs (s : State) : s.beginOp.inputs = s.inputs := rfl
@[simp] theorem State.beginOp_response (s : State) : s.beginOp.response = none := rfl
@[simp] theorem State.beginOp_acc (s : State) : s.beginOp.acc = Config.freeAcc s.opCount := rfl
@[simp] theorem State.beginOp_txb (s : State) : s.beginOp.txb = freeBytes (Config.freeTxb s.opCount) Config.txBufSize := rfl
@[simp] theorem State.beginOp_rxb (s : State) : s.beginOp.rxb = freeBytes (Config.freeRxb s.opCount) s.rxBufSize := rfl
@[simp] theorem State.beginOp_declLen (s : State) : s.beginOp.declLen = Config.freeDeclLen s.opCount := rfl
@[simp] theorem State.beginOp_rxBufSize (s : State) : s.beginOp.rxBufSize = s.rxBufSize := rfl
@[simp] theorem State.beginOp_opCount (s : State) : s.beginOp.opCount = s.opCount + 1 := rfl

@[simp] theorem State.withInputs_inputs (s : State) (rest : List Input) : (s.withInputs rest).inputs = rest := rfl
@[simp] theorem State.withInputs_response (s : State) (rest : List Input) : (s.withInputs rest).response = s.response := rfl
@[simp] theorem State.withInputs_acc (s : State) (rest : List Input) : (s.withInputs rest).acc = s.acc := rfl
@[simp] theorem State.withInputs_txb (s : State) (rest : List Input) : (s.withInputs rest).txb = s.txb := rfl
@[simp] theorem State.withInputs_rxb (s : State) (rest : List Input) : (s.withInputs rest).rxb = s.rxb := rfl
@[simp] theorem State.withInputs_declLen (s : State) (rest : List Input) : (s.withInputs rest).declLen = s.declLen := rfl
@[simp] theorem State.withInputs_rxBufSize (s : State) (rest : List Input) : (s.withInputs rest).rxBufSize = s.rxBufSize := rfl
@[simp] theorem State.withInputs_opCount (s : State) (rest : List Input) : (s.withInputs rest).opCount = s.opCount := rfl

@[simp] theorem State.respond_inputs (s : State) (r : Response) : (s.respond r).inputs = s.inputs := rfl
@[simp] theorem State.respond_response (s : State) (r : Response) : (s.respond r).response = some r := rfl
@[simp] theorem State.respond_acc (s : State) (r : Response) : (s.respond r).acc = s.acc := rfl
@[simp] theorem State.respond_txb (s : State) (r : Response) : (s.respond r).txb = s.txb := rfl
@[simp] theorem State.respond_rxb (s : State) (r : Response) : (s.respond r).rxb = s.rxb := rfl
@[simp] theorem State.respond_declLen (s : State) (r : Response) : (s.respond r).declLen = s.declLen := rfl
@[simp] theorem State.respond_rxBufSize (s : State) (r : Response) : (s.respond r).rxBufSize = s.rxBufSize := rfl
@[simp] theorem State.respond_opCount (s : State) (r : Response) : (s.respond r).opCount = s.opCount := rfl

@[simp] theorem State.answerOk_inputs (s : State) (out : List Byte) : (s.answerOk out).inputs = s.inputs := rfl
@[simp] theorem State.answerOk_response (s : State) (out : List Byte) : (s.answerOk out).response = some ⟨.ok, out, []⟩ := rfl
@[simp] theorem State.answerOk_acc (s : State) (out : List Byte) : (s.answerOk out).acc = s.acc := rfl
@[simp] theorem State.answerOk_txb (s : State) (out : List Byte) : (s.answerOk out).txb = s.txb := rfl
@[simp] theorem State.answerOk_rxb (s : State) (out : List Byte) : (s.answerOk out).rxb = s.rxb := rfl
@[simp] theorem State.answerOk_declLen (s : State) (out : List Byte) : (s.answerOk out).declLen = s.declLen := rfl
@[simp] theorem State.answerOk_rxBufSize (s : State) (out : List Byte) : (s.answerOk out).rxBufSize = s.rxBufSize := rfl
@[simp] theorem State.answerOk_opCount (s : State) (out : List Byte) : (s.answerOk out).opCount = s.opCount := rfl

@[simp] theorem State.raise_inputs (s : State) (status : Status) (rx : List Byte) : (s.raise status rx).inputs = s.inputs := rfl
@[simp] theorem State.raise_response (s : State) (status : Status) (rx : List Byte) : (s.raise status rx).response = some ⟨status, [], diagnostics status rx⟩ := rfl
@[simp] theorem State.raise_acc (s : State) (status : Status) (rx : List Byte) : (s.raise status rx).acc = s.acc := rfl
@[simp] theorem State.raise_txb (s : State) (status : Status) (rx : List Byte) : (s.raise status rx).txb = s.txb := rfl
@[simp] theorem State.raise_rxb (s : State) (status : Status) (rx : List Byte) : (s.raise status rx).rxb = s.rxb := rfl
@[simp] theorem State.raise_declLen (s : State) (status : Status) (rx : List Byte) : (s.raise status rx).declLen = s.declLen := rfl
@[simp] theorem State.raise_rxBufSize (s : State) (status : Status) (rx : List Byte) : (s.raise status rx).rxBufSize = s.rxBufSize := rfl
@[simp] theorem State.raise_opCount (s : State) (status : Status) (rx : List Byte) : (s.raise status rx).opCount = s.opCount := rfl

@[simp] theorem State.setAcc_inputs (s : State) (v : Byte) : (s.setAcc v).inputs = s.inputs := rfl
@[simp] theorem State.setAcc_response (s : State) (v : Byte) : (s.setAcc v).response = s.response := rfl
@[simp] theorem State.setAcc_acc (s : State) (v : Byte) : (s.setAcc v).acc = v := rfl
@[simp] theorem State.setAcc_txb (s : State) (v : Byte) : (s.setAcc v).txb = s.txb := rfl
@[simp] theorem State.setAcc_rxb (s : State) (v : Byte) : (s.setAcc v).rxb = s.rxb := rfl
@[simp] theorem State.setAcc_declLen (s : State) (v : Byte) : (s.setAcc v).declLen = s.declLen := rfl
@[simp] theorem State.setAcc_rxBufSize (s : State) (v : Byte) : (s.setAcc v).rxBufSize = s.rxBufSize := rfl
@[simp] theorem State.setAcc_opCount (s : State) (v : Byte) : (s.setAcc v).opCount = s.opCount := rfl

@[simp] theorem State.foldBytes_inputs (s : State) (xs : List Byte) : (s.foldBytes xs).inputs = s.inputs := rfl
@[simp] theorem State.foldBytes_response (s : State) (xs : List Byte) : (s.foldBytes xs).response = s.response := rfl
@[simp] theorem State.foldBytes_acc (s : State) (xs : List Byte) : (s.foldBytes xs).acc = fold s.acc xs := rfl
@[simp] theorem State.foldBytes_txb (s : State) (xs : List Byte) : (s.foldBytes xs).txb = s.txb := rfl
@[simp] theorem State.foldBytes_rxb (s : State) (xs : List Byte) : (s.foldBytes xs).rxb = s.rxb := rfl
@[simp] theorem State.foldBytes_declLen (s : State) (xs : List Byte) : (s.foldBytes xs).declLen = s.declLen := rfl
@[simp] theorem State.foldBytes_rxBufSize (s : State) (xs : List Byte) : (s.foldBytes xs).rxBufSize = s.rxBufSize := rfl
@[simp] theorem State.foldBytes_opCount (s : State) (xs : List Byte) : (s.foldBytes xs).opCount = s.opCount := rfl

@[simp] theorem State.txWrite_inputs (s : State) (i : Nat) (v : Byte) : (s.txWrite i v).inputs = s.inputs := rfl
@[simp] theorem State.txWrite_response (s : State) (i : Nat) (v : Byte) : (s.txWrite i v).response = s.response := rfl
@[simp] theorem State.txWrite_acc (s : State) (i : Nat) (v : Byte) : (s.txWrite i v).acc = s.acc := rfl
@[simp] theorem State.txWrite_txb (s : State) (i : Nat) (v : Byte) : (s.txWrite i v).txb = s.txb.set i v := rfl
@[simp] theorem State.txWrite_rxb (s : State) (i : Nat) (v : Byte) : (s.txWrite i v).rxb = s.rxb := rfl
@[simp] theorem State.txWrite_declLen (s : State) (i : Nat) (v : Byte) : (s.txWrite i v).declLen = s.declLen := rfl
@[simp] theorem State.txWrite_rxBufSize (s : State) (i : Nat) (v : Byte) : (s.txWrite i v).rxBufSize = s.rxBufSize := rfl
@[simp] theorem State.txWrite_opCount (s : State) (i : Nat) (v : Byte) : (s.txWrite i v).opCount = s.opCount := rfl

@[simp] theorem State.txEmit_inputs (s : State) (i : Nat) (v : Byte) : (s.txEmit i v).inputs = s.inputs := rfl
@[simp] theorem State.txEmit_response (s : State) (i : Nat) (v : Byte) : (s.txEmit i v).response = s.response := rfl
@[simp] theorem State.txEmit_acc (s : State) (i : Nat) (v : Byte) : (s.txEmit i v).acc = s.acc ^^^ v := rfl
@[simp] theorem State.txEmit_txb (s : State) (i : Nat) (v : Byte) : (s.txEmit i v).txb = s.txb.set i v := rfl
@[simp] theorem State.txEmit_rxb (s : State) (i : Nat) (v : Byte) : (s.txEmit i v).rxb = s.rxb := rfl
@[simp] theorem State.txEmit_declLen (s : State) (i : Nat) (v : Byte) : (s.txEmit i v).declLen = s.declLen := rfl
@[simp] theorem State.txEmit_rxBufSize (s : State) (i : Nat) (v : Byte) : (s.txEmit i v).rxBufSize = s.rxBufSize := rfl
@[simp] theorem State.txEmit_opCount (s : State) (i : Nat) (v : Byte) : (s.txEmit i v).opCount = s.opCount := rfl

@[simp] theorem State.rxLoad_inputs (s : State) (rx : List Byte) : (s.rxLoad rx).inputs = s.inputs := rfl
@[simp] theorem State.rxLoad_response (s : State) (rx : List Byte) : (s.rxLoad rx).response = s.response := rfl
@[simp] theorem State.rxLoad_acc (s : State) (rx : List Byte) : (s.rxLoad rx).acc = s.acc := rfl
@[simp] theorem State.rxLoad_txb (s : State) (rx : List Byte) : (s.rxLoad rx).txb = s.txb := rfl
@[simp] theorem State.rxLoad_rxb (s : State) (rx : List Byte) : (s.rxLoad rx).rxb = rx := rfl
@[simp] theorem State.rxLoad_declLen (s : State) (rx : List Byte) : (s.rxLoad rx).declLen = s.declLen := rfl
@[simp] theorem State.rxLoad_rxBufSize (s : State) (rx : List Byte) : (s.rxLoad rx).rxBufSize = s.rxBufSize := rfl
@[simp] theorem State.rxLoad_opCount (s : State) (rx : List Byte) : (s.rxLoad rx).opCount = s.opCount := rfl

@[simp] theorem State.setDeclLen_inputs (s : State) (v : Len) : (s.setDeclLen v).inputs = s.inputs := rfl
@[simp] theorem State.setDeclLen_response (s : State) (v : Len) : (s.setDeclLen v).response = s.response := rfl
@[simp] theorem State.setDeclLen_acc (s : State) (v : Len) : (s.setDeclLen v).acc = s.acc := rfl
@[simp] theorem State.setDeclLen_txb (s : State) (v : Len) : (s.setDeclLen v).txb = s.txb := rfl
@[simp] theorem State.setDeclLen_rxb (s : State) (v : Len) : (s.setDeclLen v).rxb = s.rxb := rfl
@[simp] theorem State.setDeclLen_declLen (s : State) (v : Len) : (s.setDeclLen v).declLen = v := rfl
@[simp] theorem State.setDeclLen_rxBufSize (s : State) (v : Len) : (s.setDeclLen v).rxBufSize = s.rxBufSize := rfl
@[simp] theorem State.setDeclLen_opCount (s : State) (v : Len) : (s.setDeclLen v).opCount = s.opCount := rfl

@[simp] theorem State.txEmitAll_inputs (s : State) (i : Nat) (xs : List Byte) : (s.txEmitAll i xs).inputs = s.inputs := by
  induction xs generalizing s i with
  | nil => rfl
  | cons x xs ih => simp [State.txEmitAll, ih]

@[simp] theorem State.txEmitAll_response (s : State) (i : Nat) (xs : List Byte) : (s.txEmitAll i xs).response = s.response := by
  induction xs generalizing s i with
  | nil => rfl
  | cons x xs ih => simp [State.txEmitAll, ih]

@[simp] theorem State.txEmitAll_rxb (s : State) (i : Nat) (xs : List Byte) : (s.txEmitAll i xs).rxb = s.rxb := by
  induction xs generalizing s i with
  | nil => rfl
  | cons x xs ih => simp [State.txEmitAll, ih]

@[simp] theorem State.txEmitAll_declLen (s : State) (i : Nat) (xs : List Byte) : (s.txEmitAll i xs).declLen = s.declLen := by
  induction xs generalizing s i with
  | nil => rfl
  | cons x xs ih => simp [State.txEmitAll, ih]

@[simp] theorem State.txEmitAll_rxBufSize (s : State) (i : Nat) (xs : List Byte) : (s.txEmitAll i xs).rxBufSize = s.rxBufSize := by
  induction xs generalizing s i with
  | nil => rfl
  | cons x xs ih => simp [State.txEmitAll, ih]

@[simp] theorem State.txEmitAll_opCount (s : State) (i : Nat) (xs : List Byte) : (s.txEmitAll i xs).opCount = s.opCount := by
  induction xs generalizing s i with
  | nil => rfl
  | cons x xs ih => simp [State.txEmitAll, ih]

@[simp] theorem State.txEmitAll_acc (s : State) (i : Nat) (xs : List Byte) :
    (s.txEmitAll i xs).acc = fold s.acc xs := by
  induction xs generalizing s i with
  | nil => rfl
  | cons x xs ih => simp [State.txEmitAll, ih, fold]

/-- A write to the transmit buffer never changes its length. -/
@[simp] theorem State.txEmitAll_txb_length (s : State) (i : Nat) (xs : List Byte) :
    (s.txEmitAll i xs).txb.length = s.txb.length := by
  induction xs generalizing s i with
  | nil => rfl
  | cons x xs ih => simp [State.txEmitAll, ih]

@[simp] theorem freeBytes_length (f : Nat → Byte) (n : Nat) : (freeBytes f n).length = n := by
  simp [freeBytes]

/-- The length of the transmit buffer when an operation begins (10_state.md R19). -/
theorem State.beginOp_txb_length (s : State) : s.beginOp.txb.length = 130 := by
  simp [Config.txBufSize]

end Sys2Proof.Machine
end

