-- ==== Sys2Proof/Laws/Ops.lean ====
section
/-! SUPPORT. What the two operations of the block do, once each: ENCODE's buffer, fold and response; DECODE's response as a
function of the request, and what it leaves in the transient registers. -/

namespace Sys2Proof.Machine

/-- A list up to and with an index just written. -/
theorem take_succ_set (l : List Byte) (i : Nat) (x : Byte) (h : i < l.length) :
    (l.set i x).take (i + 1) = l.take i ++ [x] := by
  rw [List.take_add_one, List.getElem?_set_self h, List.take_set_of_le (Nat.le_refl i)]
  rfl

/-- Bytes emitted from index `i` on replace exactly those of the buffer (20_memory.md R29). -/
theorem State.txEmitAll_txb (s : State) (i : Nat) (xs : List Byte) (h : i + xs.length ≤ s.txb.length) :
    (s.txEmitAll i xs).txb = s.txb.take i ++ xs ++ s.txb.drop (i + xs.length) := by
  induction xs generalizing s i with
  | nil => simp [State.txEmitAll]
  | cons x xs ih =>
    simp only [List.length_cons] at h
    rw [State.txEmitAll, ih (s.txEmit i x) (i + 1) (by simpa using by omega)]
    have hi : i < s.txb.length := by omega
    simp only [State.txEmit_txb, List.length_cons]
    rw [take_succ_set _ _ _ hi, List.drop_set_of_lt (by omega), show i + 1 + xs.length = i + (xs.length + 1) by omega]
    simp

/-- ENCODE of a payload that is too long: only the response is written (40_encode.md R57). -/
theorem State.encodeOp_long (s : State) (addr : Addr) (p : List Byte) (h : 127 < p.length) :
    s.encodeOp addr p = s.beginOp.respond ⟨.payloadTooLarge, [], []⟩ := by
  simp [State.encodeOp, Config.maxPayload, h, State.raise, diagnostics, Status.errorClass]

/-- The bytes of an outbound frame before its checksum (30_encoding.md R40). -/
def outboundBody (p : List Byte) : List Byte := 0x51#8 :: (0x80#8 ||| BitVec.ofNat 8 p.length) :: p

/-- The outbound frame (30_encoding.md R40, R46). -/
def outboundFrame (addr : Addr) (p : List Byte) : List Byte :=
  outboundBody p ++ [fold (addr.setWidth 8 <<< 1) (outboundBody p)]

@[simp] theorem outboundBody_length (p : List Byte) : (outboundBody p).length = p.length + 2 := rfl

@[simp] theorem outboundFrame_length (addr : Addr) (p : List Byte) : (outboundFrame addr p).length = p.length + 3 := by
  simp [outboundFrame]

/-- ENCODE of a payload of at most 127 bytes: the frame stands in the transmit buffer, the bytes above it are as they
were, the accumulator holds the checksum, the frame is the output (40_encode.md R56 to R62, 10_state.md R19). -/
theorem State.encodeOp_short (s : State) (addr : Addr) (p : List Byte) (h : p.length ≤ 127) :
    s.encodeOp addr p =
      { s.beginOp with
        acc := fold (addr.setWidth 8 <<< 1) (outboundBody p)
        txb := outboundFrame addr p ++ s.beginOp.txb.drop (p.length + 3)
        response := some ⟨.ok, outboundFrame addr p, []⟩ } := by
  have hb := s.beginOp_txb_length
  obtain ⟨x, y, B, hB⟩ : ∃ x y B, s.beginOp.txb = x :: y :: B := by
    match h' : s.beginOp.txb, hb with
    | x :: y :: B, _ => exact ⟨x, y, B, rfl⟩
  have hlen : B.length = 128 := by rw [hB] at hb; simpa using hb
  have hacc : (((s.beginOp.setAcc (addressByte addr)).txEmit 0 Config.srcMarker).txEmit 1 (packMarker p.length)
      |>.txEmitAll 2 p).acc = fold (addr.setWidth 8 <<< 1) (outboundBody p) := by
    simp [outboundBody, fold, addressByte, packMarker, Config.srcMarker, Config.tag]
  have htxb : (((s.beginOp.setAcc (addressByte addr)).txEmit 0 Config.srcMarker).txEmit 1 (packMarker p.length)
      |>.txEmitAll 2 p).txb = outboundBody p ++ B.drop p.length := by
    rw [State.txEmitAll_txb _ _ _ (by simp [hB, hlen, -State.beginOp_txb]; omega)]
    simp [hB, outboundBody, packMarker, Config.srcMarker, Config.tag, Nat.add_comm 2, -State.beginOp_txb]
  have hne : B.drop p.length ≠ [] := by
    rw [Ne, List.drop_eq_nil_iff]; omega
  have hset : (outboundBody p ++ B.drop p.length).set (p.length + 2) (fold (addr.setWidth 8 <<< 1) (outboundBody p)) =
      outboundFrame addr p ++ B.drop (p.length + 1) := by
    obtain ⟨c, C, hC⟩ := List.exists_cons_of_ne_nil hne
    have : B.drop (p.length + 1) = C := by rw [← List.drop_drop, hC]; rfl
    rw [hC, this, outboundFrame, List.set_append]
    simp
  have e : s.encodeOp addr p = (((((s.beginOp.setAcc (addressByte addr)).txEmit 0 Config.srcMarker).txEmit 1
      (packMarker p.length)).txEmitAll 2 p).txWrite (p.length + 2) (fold (addr.setWidth 8 <<< 1) (outboundBody p))).answerOk
      (outboundFrame addr p) := by
    unfold State.encodeOp
    simp only [Config.maxPayload, Nat.not_lt.2 h, if_false]
    rw [hacc]
    congr 1
    rw [State.txWrite_txb, htxb, hset, List.take_append_of_le_length (by simp), List.take_of_length_le (by simp)]
  have hdrop : s.beginOp.txb.drop (p.length + 3) = B.drop (p.length + 1) := by rw [hB]; rfl
  rw [e, hdrop]
  generalize hs : (((s.beginOp.setAcc (addressByte addr)).txEmit 0 Config.srcMarker).txEmit 1
      (packMarker p.length)).txEmitAll 2 p = u at hacc htxb
  have h1 : u.inputs = s.beginOp.inputs := by rw [← hs]; simp
  have h3 : u.rxb = s.beginOp.rxb := by rw [← hs]; simp
  have h4 : u.declLen = s.beginOp.declLen := by rw [← hs]; simp
  have h5 : u.rxBufSize = s.beginOp.rxBufSize := by rw [← hs]; simp
  have h6 : u.opCount = s.beginOp.opCount := by rw [← hs]; simp
  unfold State.answerOk State.respond State.txWrite
  rw [htxb, hset, hacc, h1, h3, h4, h5, h6]

/-- ENCODE's response as a function of the request (40_encode.md R56). -/
theorem State.encodeOp_response (s : State) (addr : Addr) (p : List Byte) :
    (s.encodeOp addr p).response = some (encodeAnswer addr p) := by
  by_cases h : p.length ≤ 127
  · rw [State.encodeOp_short s addr p h]
    simp [encodeAnswer, h, outboundFrame, outboundBody]
  · rw [State.encodeOp_long s addr p (by omega)]
    simp [encodeAnswer, h]

/-- ENCODE writes neither the receive side nor what the outside presents (20_memory.md R29, R36). -/
theorem State.encodeOp_frame (s : State) (addr : Addr) (p : List Byte) :
    (s.encodeOp addr p).inputs = s.inputs ∧ (s.encodeOp addr p).rxBufSize = s.rxBufSize ∧
    (s.encodeOp addr p).rxb = s.beginOp.rxb ∧ (s.encodeOp addr p).declLen = s.beginOp.declLen ∧
    (s.encodeOp addr p).txb.length = 130 := by
  by_cases h : p.length ≤ 127
  · rw [State.encodeOp_short s addr p h]
    simp [Config.txBufSize]; omega
  · rw [State.encodeOp_long s addr p (by omega)]
    simp [Config.txBufSize]

/-- DECODE of a buffer of a length the block does not take (41_decode.md R66). -/
theorem State.decodeOp_bad (s : State) (addr : Addr) (maxLen : Nat) (rx : List Byte)
    (h : rx.length < 3 ∨ s.rxBufSize < rx.length) :
    s.decodeOp addr maxLen rx = s.beginOp.respond ⟨.badRequest, [], []⟩ := by
  simp [State.decodeOp, h, State.raise, diagnostics, Status.errorClass]

/-- DECODE past the request bounds: the buffer is loaded and its first two bytes are checked (41_decode.md R65). -/
theorem State.decodeOp_cons (s : State) (addr : Addr) (maxLen : Nat) (b0 b1 b2 : Byte) (rest : List Byte)
    (h : ¬ s.rxBufSize < (b0 :: b1 :: b2 :: rest).length) :
    s.decodeOp addr maxLen (b0 :: b1 :: b2 :: rest) =
      (let u := s.beginOp.rxLoad (b0 :: b1 :: b2 :: rest)
       if isBusy b0 = true then u.raise .busy u.rxb
       else if b0 ≠ addressByte addr then u.raise .addressMismatch u.rxb
       else u.checkMarker maxLen b1) := by
  unfold State.decodeOp
  simp only [State.beginOp_rxBufSize, h, or_false]
  rw [if_neg (by simp)]
  rfl

/-- A request past the bounds has at least three bytes. -/
theorem three_bytes (rx : List Byte) (h : ¬ rx.length < 3) : ∃ b0 b1 b2 rest, rx = b0 :: b1 :: b2 :: rest := by
  match rx, h with
  | b0 :: b1 :: b2 :: rest, _ => exact ⟨b0, b1, b2, rest, rfl⟩
  | [], h => simp at h
  | [_], h => simp at h
  | [_, _], h => simp at h

/-- The declared length as a number, as the specification writes it (41_decode.md R70). -/
theorem declaredLength_toNat (b : Byte) : (declaredLength b).toNat = (b &&& 0x7F#8).toNat := by
  revert b; decide

/-- DECODE's response as a function of the request (10_state.md R21, 41_decode.md R65). -/
theorem State.decodeOp_response (s : State) (addr : Addr) (maxLen : Nat) (rx : List Byte) :
    (s.decodeOp addr maxLen rx).response = some (decodeAnswer s.rxBufSize addr maxLen rx) := by
  by_cases h3 : rx.length < 3
  · rw [State.decodeOp_bad s addr maxLen rx (.inl h3)]
    match rx, h3 with
    | [], _ => rfl
    | [_], _ => rfl
    | [_, _], _ => rfl
  · obtain ⟨b0, b1, b2, rest, rfl⟩ := three_bytes rx h3
    by_cases hn : s.rxBufSize < (b0 :: b1 :: b2 :: rest).length
    · rw [State.decodeOp_bad s addr maxLen _ (.inr hn)]
      simp only [decodeAnswer, hn, if_true, State.respond_response]
    · rw [State.decodeOp_cons s addr maxLen b0 b1 b2 rest hn]
      simp only [decodeAnswer, hn, if_false, ← declaredLength_toNat]
      have hb : isBusy b0 = true ↔ b0 = 0x51#8 ∨ b0 = 0xFF#8 := by
        simp [isBusy, Config.busyA, Config.busyB]
      simp only [hb]
      by_cases hB : b0 = 0x51#8 ∨ b0 = 0xFF#8
      · rw [if_pos hB, if_pos hB]; rfl
      rw [if_neg hB, if_neg hB]
      change (if b0 ≠ addr.setWidth 8 <<< 1 then _ else _ : State).response = _
      by_cases hA : b0 ≠ addr.setWidth 8 <<< 1
      · rw [if_pos hA, if_pos hA]; rfl
      rw [if_neg hA, if_neg hA]
      change (if b1.getLsbD 7 = false then _ else _ : State).response = _
      by_cases hT : b1.getLsbD 7 = false
      · rw [if_pos hT, if_pos hT]; rfl
      rw [if_neg hT, if_neg hT]
      change (if maxLen < (declaredLength b1).toNat ∨ s.rxBufSize < (declaredLength b1).toNat then _ else _ : State).response = _
      by_cases hL : maxLen < (declaredLength b1).toNat ∨ s.rxBufSize < (declaredLength b1).toNat
      · rw [if_pos hL, if_pos hL]; rfl
      rw [if_neg hL, if_neg hL]
      change (if (b0 :: b1 :: b2 :: rest).length < (declaredLength b1).toNat + 3 then _ else _ : State).response = _
      by_cases hR : (b0 :: b1 :: b2 :: rest).length < (declaredLength b1).toNat + 3
      · rw [if_pos hR, if_pos hR]; rfl
      rw [if_neg hR, if_neg hR]
      change (if fold 0x50#8 ((b0 :: b1 :: b2 :: rest).take ((declaredLength b1).toNat + 3)) ≠ 0#8 then _ else _ : State).response = _
      by_cases hF : fold 0x50#8 ((b0 :: b1 :: b2 :: rest).take ((declaredLength b1).toNat + 3)) ≠ 0#8
      · rw [if_pos hF, if_pos hF]; rfl
      · rw [if_neg hF, if_neg hF]; rfl

/-- DECODE writes neither the transmit buffer nor what the outside presents; past the request bounds `RXB` holds the
received bytes (10_state.md R20, 20_memory.md R36). -/
theorem State.decodeOp_frame (s : State) (addr : Addr) (maxLen : Nat) (rx : List Byte) :
    (s.decodeOp addr maxLen rx).inputs = s.inputs ∧ (s.decodeOp addr maxLen rx).rxBufSize = s.rxBufSize ∧
    (s.decodeOp addr maxLen rx).txb = s.beginOp.txb ∧
    (s.decodeOp addr maxLen rx).rxb =
      if rx.length < 3 ∨ s.rxBufSize < rx.length then s.beginOp.rxb else rx := by
  by_cases h : rx.length < 3 ∨ s.rxBufSize < rx.length
  · rw [State.decodeOp_bad s addr maxLen rx h, if_pos h]
    simp
  · rw [if_neg h]
    obtain ⟨b0, b1, b2, rest, rfl⟩ := three_bytes rx (fun h' => h (.inl h'))
    rw [State.decodeOp_cons s addr maxLen b0 b1 b2 rest (fun h' => h (.inr h'))]
    unfold State.checkMarker State.checkLength State.verdict
    dsimp only
    repeat' split
    all_goals simp

end Sys2Proof.Machine
end

