-- ==== Sys2Proof/Laws/PerInstr.lean ====
section
/-! SUPPORT. Family TableWord: the selecting bits of the request that presents an instruction are those of the
instruction's row of spec/opcode_table.json. -/

namespace Sys2Proof.Laws.TableWord

/-- The encoder's word, under the row's mask, is the row's match. -/
def Statement (i : Instr) : Prop := i.wellFormed = true → (encode i).tableWord &&& i.tableRow.1 = i.tableRow.2

/-- Two joined bytes as a number (45_payload_layouts.md R84). -/
theorem joinBytes_and (hi lo : Byte) (mask : Half) :
    (joinBytes hi lo).toNat &&& mask.toNat = (joinBytes hi lo &&& mask).toNat := by simp

theorem header_and_missingTag (addr : Addr) (low : Len) :
    joinBytes (addressByte addr) (low.setWidth 8) &&& 0xFF80#16 = addr.setWidth 16 <<< 9 := by
  apply BitVec.eq_of_getLsbD_eq
  intro i h
  interval_cases i <;> simp [joinBytes, addressByte]

theorem header_and_frameHeader (addr : Addr) (length : Len) :
    joinBytes (addressByte addr) (packMarker length.toNat) &&& 0xFF80#16 = addr.setWidth 16 <<< 9 ||| 0x80#16 := by
  rw [packMarker_toNat]
  apply BitVec.eq_of_getLsbD_eq
  intro i h
  interval_cases i <;> simp [joinBytes, addressByte]

theorem shift_toNat (addr : Addr) : (addr.setWidth 16 <<< 9).toNat = addr.toNat <<< 9 := by
  revert addr; decide

theorem encode (addr : Addr) (payload : List Byte) : Statement (.encode addr payload) := by
  intro _; simp only [Sys2Proof.encode, Request.tableWord, Instr.tableRow]; decide
theorem decode (addr : Addr) (maxLen : Nat) (rx : List Byte) : Statement (.decode addr maxLen rx) := by
  intro _; simp only [Sys2Proof.encode, Request.tableWord, Instr.tableRow]; decide
theorem reservedCmd00 : Statement .reservedCmd00 := by
  intro _; simp only [Sys2Proof.encode, Request.tableWord, Instr.tableRow]; decide
theorem reservedCmd11 : Statement .reservedCmd11 := by
  intro _; simp only [Sys2Proof.encode, Request.tableWord, Instr.tableRow]; decide

theorem txHdr (addr : Addr) (length : Len) (payload : List Byte) : Statement (.txHdr addr length payload) := by
  intro h; clear h
  change (joinBytes Config.srcMarker (packMarker length.toNat)).toNat &&& 0xFF80 = 0x5180
  revert length; decide

theorem rxBusy51 (addr : Addr) (maxLen : Nat) (b1 : Byte) (rest : List Byte) :
    Statement (.rxBusy51 addr maxLen b1 rest) := by
  intro h; clear h
  change (joinBytes Config.busyA b1).toNat &&& 0xFF00 = 0x5100
  revert b1; decide

theorem rxBusyFF (addr : Addr) (maxLen : Nat) (b1 : Byte) (rest : List Byte) :
    Statement (.rxBusyFF addr maxLen b1 rest) := by
  intro h; clear h
  change (joinBytes Config.busyB b1).toNat &&& 0xFF00 = 0xFF00
  revert b1; decide

theorem rxAddrMismatch (addr : Addr) (maxLen : Nat) (b0 b1 : Byte) (rest : List Byte) :
    Statement (.rxAddrMismatch addr maxLen b0 b1 rest) := fun _ => Nat.and_zero _

theorem rxMissingTag (addr : Addr) (maxLen : Nat) (low : Len) (rest : List Byte) :
    Statement (.rxMissingTag addr maxLen low rest) := by
  intro _
  change (joinBytes (addressByte addr) (low.setWidth 8)).toNat &&& (0xFF80#16).toNat = addr.toNat <<< 9
  rw [joinBytes_and, header_and_missingTag, shift_toNat]

theorem rxReplyHdr (addr : Addr) (maxLen : Nat) (length : Len) (rest : List Byte) :
    Statement (.rxReplyHdr addr maxLen length rest) := by
  intro _
  change (joinBytes (addressByte addr) (packMarker length.toNat)).toNat &&& (0xFF80#16).toNat = addr.toNat <<< 9 ||| 0x80
  rw [joinBytes_and, header_and_frameHeader, BitVec.toNat_or, shift_toNat]
  rfl

theorem rdctrlReq (addr : Addr) (id : Byte) : Statement (.rdctrlReq addr id) := by
  intro _; simp only [Sys2Proof.encode, Request.tableWord, Instr.tableRow]; decide
theorem rdctrlReply (addr : Addr) (validity id reserved : Byte) (maximum current : Half) :
    Statement (.rdctrlReply addr validity id reserved maximum current) := by
  intro _; simp only [Sys2Proof.encode, Request.tableWord, Instr.tableRow, rdctrlReplyPayload, replyImage_opcode]; decide
theorem wrctrl (addr : Addr) (id : Byte) (value : Half) : Statement (.wrctrl addr id value) := by
  intro _; simp only [Sys2Proof.encode, Request.tableWord, Instr.tableRow]; decide
theorem save (addr : Addr) : Statement (.save addr) := by
  intro _; simp only [Sys2Proof.encode, Request.tableWord, Instr.tableRow]; decide
theorem capsReq (addr : Addr) (offset : Half) : Statement (.capsReq addr offset) := by
  intro _; simp only [Sys2Proof.encode, Request.tableWord, Instr.tableRow]; decide
theorem capsReply (addr : Addr) (maxLen : Nat) (offset : Half) (data : List Byte) :
    Statement (.capsReply addr maxLen offset data) := by
  intro _; simp only [Sys2Proof.encode, Request.tableWord, Instr.tableRow, capsReplyPayload, replyImage_opcode]; decide
theorem presence (addr : Addr) (rest : List Byte) : Statement (.presence addr rest) := by
  intro _; simp only [Sys2Proof.encode, Request.tableWord, Instr.tableRow]; decide
theorem bare (addr : Addr) (op : Byte) : Statement (.bare addr op) := fun _ => Nat.and_zero _

end Sys2Proof.Laws.TableWord
end

