-- ==== Sys2Proof/Machine/Text.lean ====
section
/-! DEFINITION. The specification's textual form of a request and a response (30_encoding.md R54). It is notation: no
operation reads it. -/

namespace Sys2Proof.Machine

/-- One hexadecimal digit. -/
def hexDigit (n : Nat) : String := ((['0', '1', '2', '3', '4', '5', '6', '7', '8', '9', 'A', 'B', 'C', 'D', 'E', 'F'][n]?).getD '0').toString

/-- A byte as `0xNN` (00_scope.md section 5). -/
def hexByte (b : Byte) : String := "0x" ++ hexDigit (b.toNat / 16) ++ hexDigit (b.toNat % 16)

/-- A byte sequence as a bracketed list, element 0 first. -/
def bytesText (xs : List Byte) : String := "[" ++ ", ".intercalate (xs.map hexByte) ++ "]"

/-- `ENCODE <addr>, [<byte>, ...]` or `DECODE <addr>, <max_len>, [<byte>, ...]`, of the request that a row stands for
(R54, R55); a reserved selector has no textual form. -/
def requestText (i : Instr) : Option String :=
  match i.expansion with
  | .encode addr payload => some ("ENCODE " ++ hexByte (addr.setWidth 8) ++ ", " ++ bytesText payload)
  | .decode addr maxLen rx =>
    some ("DECODE " ++ hexByte (addr.setWidth 8) ++ ", " ++ toString maxLen ++ ", " ++ bytesText rx)
  | _ => none

/-- The name of a status (10_state.md R17). -/
def Status.name : Status → String
  | .ok => "OK"
  | .payloadTooLarge => "PayloadTooLarge"
  | .busy => "Busy"
  | .addressMismatch => "AddressMismatch"
  | .missingTag => "MissingTag"
  | .lengthOverflow => "LengthOverflow"
  | .checksumMismatch => "ChecksumMismatch"
  | .badRequest => "BadRequest"

/-- `-> <status> out=[...]`, with `diag=[...]` where nonempty (R54). -/
def responseText (r : Response) : String :=
  "-> " ++ r.status.name ++ " out=" ++ bytesText r.out ++ if r.diag = [] then "" else " diag=" ++ bytesText r.diag

end Sys2Proof.Machine
end

