-- ==== Sys2Proof/Tests/Slice0.lean ====
section
/-! SUPPORT. Tests of the model, with results from spec/95_test_vectors.md and hand calculation from the rules, and a
witness for the hypotheses of each statement. -/

namespace Sys2Proof.Tests
open Sys2Proof.Machine

/-- The block of the test vectors: `RX_BUF_SIZE = 130` (95_test_vectors.md). -/
def s130 : State := State.resetWith 130

/-- The response to one instruction in that block. -/
def resp (i : Instr) : Option Response := responseOf (exec i s130)

/-- `RPL` of 95_test_vectors.md section 3, with one byte replaced. -/
def rpl (j : Nat) (v : Byte) : List Byte :=
  [0x6E#8, 0x88#8, 0x02#8, 0x00#8, 0x10#8, 0x00#8, 0x00#8, 0x64#8, 0x00#8, 0x32#8, 0xF2#8].set j v

/-! Well-formedness: an ill-formed term for each check. -/

theorem smoke_txHdr_wrong_length : (Instr.txHdr 0x37#7 2#7 [0x0C#8]).wellFormed = false := by decide
theorem smoke_rxAddrMismatch_own_address : (Instr.rxAddrMismatch 0x37#7 8 0x6E#8 0x80#8 []).wellFormed = false := by decide
theorem smoke_rxAddrMismatch_busy : (Instr.rxAddrMismatch 0x37#7 8 0xFF#8 0x80#8 []).wellFormed = false := by decide
theorem smoke_capsReply_too_long : (Instr.capsReply 0x37#7 130 0#16 (List.replicate 125 0#8)).wellFormed = false := by
  simp [Instr.wellFormed, capsReplyPayload, Config.maxPayload]

/-! Decoding: words written out from spec/opcode_table.json, 30_encoding.md R49 and R51, 45_payload_layouts.md. -/

theorem word_encode : decode (.port 0b01#2 0b0110111#7 0 [0x0C#8]) = .encode 0x37#7 [0x0C#8] := by decide
theorem word_decode : decode (.port 0b10#2 0b0110111#7 8 [0x6E#8]) = .decode 0x37#7 8 [0x6E#8] := by decide
theorem word_reserved00 : decode (.port 0b00#2 1#7 2 [3#8]) = .reservedCmd00 := by decide
theorem word_reserved11 : decode (.port 0b11#2 1#7 2 [3#8]) = .reservedCmd11 := by decide
theorem word_txHdr : decode (.outHdr 0b010100011_0000001#16 0x37#7 [0x0C#8]) = .txHdr 0x37#7 1#7 [0x0C#8] := by decide
theorem word_rxBusy51 : decode (.inHdr 0b01010001_10001000#16 0x37#7 8 []) = .rxBusy51 0x37#7 8 0x88#8 [] := by decide
theorem word_rxBusyFF : decode (.inHdr 0b11111111_00000001#16 0x37#7 8 []) = .rxBusyFF 0x37#7 8 0x01#8 [] := by decide
theorem word_rxAddrMismatch : decode (.inHdr 0b01101100_10001000#16 0x37#7 8 []) =
    .rxAddrMismatch 0x37#7 8 0x6C#8 0x88#8 [] := by decide
theorem word_rxMissingTag : decode (.inHdr 0b0110111_0_0_0001000#16 0x37#7 8 []) =
    .rxMissingTag 0x37#7 8 8#7 [] := by decide
theorem word_rxReplyHdr : decode (.inHdr 0b0110111_0_1_0001000#16 0x37#7 8 []) =
    .rxReplyHdr 0x37#7 8 8#7 [] := by decide
theorem word_rdctrlReq : decode (.outMsg 0b00000001#8 0x37#7 [0x10#8]) = .rdctrlReq 0x37#7 0x10#8 := by decide
theorem word_rdctrlReply :
    decode (.inMsg 0x37#7 8 [0x6E#8, 0x88#8, 0b00000010#8, 0x00#8, 0x10#8, 0x00#8, 0x01#8, 0x64#8, 0x02#8, 0x32#8, 0xF1#8]) =
      .rdctrlReply 0x37#7 0x00#8 0x10#8 0x00#8 0x0164#16 0x0232#16 := by decide
theorem word_wrctrl : decode (.outMsg 0b00000011#8 0x37#7 [0x10#8, 0x01#8, 0x32#8]) =
    .wrctrl 0x37#7 0x10#8 0x0132#16 := by decide
theorem word_save : decode (.outMsg 0b00001100#8 0x37#7 []) = .save 0x37#7 := by decide
theorem word_capsReq : decode (.outMsg 0b11110011#8 0x37#7 [0x01#8, 0x00#8]) = .capsReq 0x37#7 0x0100#16 := by decide
theorem word_capsReply : decode (.inMsg 0x37#7 35 [0x6E#8, 0x84#8, 0b11100011#8, 0x00#8, 0x05#8, 0x28#8, 0x74#8]) =
    .capsReply 0x37#7 35 5#16 [0x28#8] := by decide
theorem word_presence : decode (.outMsg 0b11110111#8 0x37#7 [0x01#8]) = .presence 0x37#7 [0x01#8] := by decide
theorem word_bare : decode (.bareMsg 0b11110111#8 0x37#7) = .bare 0x37#7 0xF7#8 := by decide

/-- A message, a header or a received buffer that has no row's layout is the plain ENCODE or DECODE of its bytes:
an opcode no row has, a header that announces another length, another bound, a reply with one byte missing, a tail. -/
theorem word_plain :
    decode (.outMsg 0x05#8 0x37#7 []) = .encode 0x37#7 [0x05#8] ∧
    decode (.outMsg 0x03#8 0x37#7 [1#8]) = .encode 0x37#7 [0x03#8, 1#8] ∧
    decode (.outHdr 0x5182#16 0x37#7 [1#8]) = .encode 0x37#7 [1#8] ∧
    decode (.inMsg 0x37#7 7 (rpl 0 0x6E#8)) = .decode 0x37#7 7 (rpl 0 0x6E#8) ∧
    decode (.inMsg 0x37#7 8 ((rpl 0 0x6E#8).take 10)) = .decode 0x37#7 8 ((rpl 0 0x6E#8).take 10) ∧
    decode (.inMsg 0x37#7 8 (rpl 0 0x6E#8 ++ [0xAA#8])) = .decode 0x37#7 8 (rpl 0 0x6E#8 ++ [0xAA#8]) := by decide

/-- The table's rows through `decodeTableWord` (spec/opcode_table.json `match`). -/
theorem word_table :
    decodeTableWord 8 0x1 = some (.encode 0#7 []) ∧ decodeTableWord 8 0x2 = some (.decode 0#7 0 []) ∧
    decodeTableWord 16 0x5180 = some (.txHdr 0x37#7 0#7 []) ∧
    decodeTableWord 16 0x5100 = some (.rxBusy51 0x37#7 0 0#8 [0#8]) ∧
    decodeTableWord 16 0x6E00 = some (.rxMissingTag 0x37#7 0 0#7 [0#8]) ∧
    decodeTableWord 16 0x6E80 = some (.rxReplyHdr 0x37#7 0 0#7 [0#8]) ∧
    decodeTableWord 8 0x0C = some (.save 0#7) ∧ decodeTableWord 8 0xF3 = some (.capsReq 0#7 0#16) ∧
    decodeTableWord 8 0xE3 = some (.capsReply 0#7 0 0#16 []) ∧ decodeTableWord 8 0xF7 = some (.presence 0#7 []) := by
  decide

/-! ENCODE vectors: T-E1, T-E4, T-E10, T-E13; T-E8. -/

theorem test_encode_frames :
    resp (.encode 0x37#7 []) = some ⟨.ok, [0x51#8, 0x80#8, 0xBF#8], []⟩ ∧
    resp (.encode 0x37#7 [0x03#8, 0x10#8, 0x00#8, 0x32#8]) =
      some ⟨.ok, [0x51#8, 0x84#8, 0x03#8, 0x10#8, 0x00#8, 0x32#8, 0x9A#8], []⟩ ∧
    resp (.encode 0x00#7 [0x01#8, 0x10#8]) = some ⟨.ok, [0x51#8, 0x82#8, 0x01#8, 0x10#8, 0xC2#8], []⟩ ∧
    resp (.encode 0x37#7 [0xBE#8]) = some ⟨.ok, [0x51#8, 0x81#8, 0xBE#8, 0x00#8], []⟩ := by decide

theorem test_encode_too_long : resp (.encode 0x37#7 (List.replicate 128 0#8)) = some ⟨.payloadTooLarge, [], []⟩ := by
  simp [resp, exec, execEncode, responseOf, State.encodeOp_long]

/-! DECODE vectors: T-D1, T-D15, T-D21, T-D30; T-D4, T-D5, T-D6, T-D8, T-D10, T-D12, T-D13, T-D16. -/

theorem test_decode_accepts :
    resp (.decode 0x37#7 8 (rpl 0 0x6E#8)) =
      some ⟨.ok, [0x02#8, 0x00#8, 0x10#8, 0x00#8, 0x00#8, 0x64#8, 0x00#8, 0x32#8], []⟩ ∧
    resp (.decode 0x37#7 8 (rpl 0 0x6E#8 ++ [0xAA#8, 0x55#8])) = resp (.decode 0x37#7 8 (rpl 0 0x6E#8)) ∧
    resp (.decode 0x37#7 4 [0x6E#8, 0x84#8, 0x03#8, 0x10#8, 0x00#8, 0x32#8, 0x9B#8]) =
      some ⟨.ok, [0x03#8, 0x10#8, 0x00#8, 0x32#8], []⟩ ∧
    resp (.decode 0x37#7 35 [0x6E#8, 0x83#8, 0xE3#8, 0x00#8, 0x05#8, 0x5B#8]) =
      some ⟨.ok, [0xE3#8, 0x00#8, 0x05#8], []⟩ := by decide

theorem test_decode_rejects :
    resp (.decode 0x37#7 8 (rpl 0 0xFF#8)) = some ⟨.busy, [], []⟩ ∧
    resp (.decode 0x37#7 8 [0x51#8, 0x00#8, 0x00#8]) = some ⟨.busy, [], []⟩ ∧
    resp (.decode 0x36#7 8 (rpl 0 0x6E#8)) = some ⟨.addressMismatch, [], rpl 0 0x6E#8⟩ ∧
    resp (.decode 0x37#7 8 (rpl 1 0x08#8)) = some ⟨.missingTag, [], rpl 1 0x08#8⟩ ∧
    resp (.decode 0x37#7 7 (rpl 0 0x6E#8)) = some ⟨.lengthOverflow, [], rpl 0 0x6E#8⟩ ∧
    resp (.decode 0x37#7 8 [0x6E#8, 0x88#8, 0x02#8]) = some ⟨.lengthOverflow, [], [0x6E#8, 0x88#8, 0x02#8]⟩ ∧
    resp (.decode 0x37#7 8 (rpl 10 0xF3#8)) = some ⟨.checksumMismatch, [], rpl 10 0xF3#8⟩ ∧
    resp (.decode 0x37#7 8 [0x6E#8, 0x80#8]) = some ⟨.badRequest, [], []⟩ := by decide

/-- T-D18: with a receive buffer of 8 bytes, and one byte more than it takes (41_decode.md R66). -/
theorem test_decode_small_buffer :
    responseOf (exec (.decode 0x37#7 8 ((rpl 0 0x6E#8).take 8)) (State.resetWith 8)) =
      some ⟨.lengthOverflow, [], (rpl 0 0x6E#8).take 8⟩ ∧
    responseOf (exec (.decode 0x37#7 8 ((rpl 0 0x6E#8).take 9)) (State.resetWith 8)) = some ⟨.badRequest, [], []⟩ := by
  decide

/-- T-E16. -/
theorem test_reserved : resp .reservedCmd00 = some ⟨.badRequest, [], []⟩ ∧ resp .reservedCmd11 = some ⟨.badRequest, [], []⟩ := by
  decide

/-! Messages: the examples of R85 to R92 (T-E2, T-E3, T-E5, T-E6, T-E14, T-E15, T-D1, T-D31). -/

theorem test_rdctrlReq : resp (.rdctrlReq 0x37#7 0x10#8) = some ⟨.ok, [0x51#8, 0x82#8, 0x01#8, 0x10#8, 0xAC#8], []⟩ := by decide
theorem test_wrctrl : resp (.wrctrl 0x37#7 0x10#8 50#16) =
    some ⟨.ok, [0x51#8, 0x84#8, 0x03#8, 0x10#8, 0x00#8, 0x32#8, 0x9A#8], []⟩ := by decide
theorem test_save : resp (.save 0x37#7) = some ⟨.ok, [0x51#8, 0x81#8, 0x0C#8, 0xB2#8], []⟩ := by decide
theorem test_capsReq : resp (.capsReq 0x37#7 0x0100#16) =
    some ⟨.ok, [0x51#8, 0x83#8, 0xF3#8, 0x01#8, 0x00#8, 0x4E#8], []⟩ := by decide
theorem test_presence : resp (.presence 0x37#7 []) = some ⟨.ok, [0x51#8, 0x81#8, 0xF7#8, 0x49#8], []⟩ := by decide
theorem test_bare : resp (.bare 0x37#7 0xF7#8) = some ⟨.ok, [0x51#8, 0x81#8, 0xF7#8, 0x49#8], []⟩ := by decide
theorem test_rdctrlReply : resp (.rdctrlReply 0x37#7 0x00#8 0x10#8 0x00#8 100#16 50#16) =
    some ⟨.ok, [0x02#8, 0x00#8, 0x10#8, 0x00#8, 0x00#8, 0x64#8, 0x00#8, 0x32#8], []⟩ := by decide
theorem test_capsReply : resp (.capsReply 0x37#7 35 0#16 [0x28#8, 0x76#8]) =
    some ⟨.ok, [0xE3#8, 0x00#8, 0x00#8, 0x28#8, 0x76#8], []⟩ := by decide
theorem test_txHdr : resp (.txHdr 0x37#7 2#7 [0x51#8, 0xFF#8]) =
    some ⟨.ok, [0x51#8, 0x82#8, 0x51#8, 0xFF#8, 0x13#8], []⟩ := by decide

/-! Header rows: T-D3, T-D4, T-D7, T-D9, T-D2. -/

theorem test_rxBusy51 : resp (.rxBusy51 0x37#7 8 0x88#8 [0x02#8]) = some ⟨.busy, [], []⟩ := by decide
theorem test_rxBusyFF : resp (.rxBusyFF 0x37#7 8 0x88#8 [0x02#8]) = some ⟨.busy, [], []⟩ := by decide
theorem test_rxAddrMismatch : resp (.rxAddrMismatch 0x37#7 8 0x6F#8 0x88#8 [0x02#8]) =
    some ⟨.addressMismatch, [], [0x6F#8, 0x88#8, 0x02#8]⟩ := by decide
theorem test_rxMissingTag : resp (.rxMissingTag 0x37#7 8 0#7 [0x3E#8]) =
    some ⟨.missingTag, [], [0x6E#8, 0x00#8, 0x3E#8]⟩ := by decide
theorem test_rxReplyHdr : resp (.rxReplyHdr 0x37#7 0 0#7 [0xBE#8]) = some ⟨.ok, [], []⟩ := by decide

/-- Field packing, layouts and codes: R43, R48, R79 (R86's example), R84, R93, R90, R17. -/
theorem test_operands :
    addressByte 0x37#7 = 0x6E#8 ∧ frameLength 0xFF#8 = some 130 ∧ frameLength 0x7F#8 = none ∧
    replyImage 0x37#7 [0x02#8, 0x00#8, 0x10#8, 0x00#8, 0x00#8, 0x64#8, 0x00#8, 0x32#8] = rpl 0 0x6E#8 ∧
    highByte 0x0132#16 = 0x01#8 ∧ lowByte 0x0132#16 = 0x32#8 ∧ joinBytes 0x01#8 0x32#8 = 0x0132#16 ∧
    (readControlReply ((rpl 0 0#8).drop 2 |>.take 8)).map ControlReply.valid = some true ∧
    terminalChunk [0xE3#8, 0x00#8, 0x05#8] = true ∧ Status.checksumMismatch.code = 6#3 := by decide

/-- The notation of R54, for R55's `SAVE` and for T-D12's kind of response. -/
theorem test_text :
    requestText (.save 0x37#7) = some "ENCODE 0x37, [0x0C]" ∧
    responseText ⟨.missingTag, [], [0x6E#8, 0x00#8]⟩ = "-> MissingTag out=[] diag=[0x6E, 0x00]" := by decide

/-- P2, as seen by the codec: a busy read-back leaves no trace (95_test_vectors.md section 5). -/
theorem test_program_busy_then_reply :
    responses 2 (s130.withInputs [.request (encode (rdreply 0x37#7 (List.replicate 11 0xFF#8))),
      .request (encode (rdreply 0x37#7 (rpl 0 0x6E#8)))]) =
    [⟨.busy, [], []⟩, ⟨.ok, [0x02#8, 0x00#8, 0x10#8, 0x00#8, 0x00#8, 0x64#8, 0x00#8, 0x32#8], []⟩] := by decide

/-- One request gives one response, whatever idle steps and pulses of reset come before and after it (R35, R107). -/
theorem test_idle_adds_no_response :
    responses 4 (s130.withInputs [.reset, .request (encode (.save 0x37#7))]) =
    [⟨.ok, [0x51#8, 0x81#8, 0x0C#8, 0xB2#8], []⟩] := by decide

/-- The first step after reset runs the row's instruction (SAVE, as `withFetchWord` presents it). -/
theorem test_withFetchWord : responseOf (step (State.reset.withFetchWord 8 0x0C)) =
    some ⟨.ok, [0x51#8, 0x81#8, 0x0C#8, 0xDC#8], []⟩ := by decide

/-! Witnesses: for each statement with hypotheses, concrete values that meet them all. -/

theorem wit_EncodeAnswersOutboundFrame : (List.replicate 127 0x00#8).length ≤ 127 := by
  simp
theorem wit_EncodeWritesOnlyItsFrameBytes : (List.replicate 127 0x00#8).length ≤ 127 := by
  simp
theorem wit_EncodeTooLongWritesNoFrameByte : 127 < (List.replicate 128 0x00#8).length := by
  simp
theorem wit_OutboundFrameFoldsToZero : [0x0C#8].length ≤ 127 := by decide
theorem wit_DecodeOfOutboundFrameIsBusy : [0x0C#8].length ≤ 127 ∧ [0x0C#8].length + 3 ≤ s130.rxBufSize := by decide
theorem wit_TxHeaderGivesFrameWithThatHeader : [0x0C#8].length = (1#7).toNat := by decide
theorem wit_FrameLengthIsSetByMarker : (List.replicate 127 0x00#8).length ≤ 127 ∧
    resp (.decode 0x37#7 0 [0x6E#8, 0x80#8, 0xBE#8]) = some ⟨.ok, [], []⟩ := ⟨by simp, by decide⟩
theorem wit_DecodeOutOfBoundsIsBadRequest :
    [0x6E#8, 0x80#8].length < 3 ∧ s130.rxBufSize < (List.replicate 131 0x00#8).length := by
  simp [s130, State.resetWith]
theorem wit_DecodeBusyBeforeEveryFrameCheck :
    3 ≤ [0x51#8, 0x00#8, 0x00#8].length ∧ [0x51#8, 0x00#8, 0x00#8].length ≤ s130.rxBufSize ∧
    [0x51#8, 0x00#8, 0x00#8][0]? = some 0x51#8 ∧ [0xFF#8, 0x00#8, 0x00#8][0]? = some 0xFF#8 := by decide
theorem wit_DecodeWrongAddressIsMismatch :
    3 ≤ [0x6C#8, 0x00#8, 0x00#8].length ∧ [0x6C#8, 0x00#8, 0x00#8].length ≤ s130.rxBufSize ∧
    [0x6C#8, 0x00#8, 0x00#8][0]? = some 0x6C#8 ∧ 0x6C#8 ≠ 0x51#8 ∧ 0x6C#8 ≠ 0xFF#8 ∧
    0x6C#8 ≠ (0x37#7 : Addr).setWidth 8 <<< 1 := by decide
theorem wit_DecodeClearTagIsMissingTag :
    3 ≤ [0x6E#8, 0x7F#8, 0x3E#8].length ∧ [0x6E#8, 0x7F#8, 0x3E#8].length ≤ s130.rxBufSize ∧
    [0x6E#8, 0x7F#8, 0x3E#8][0]? = some ((0x37#7 : Addr).setWidth 8 <<< 1) ∧
    [0x6E#8, 0x7F#8, 0x3E#8][1]? = some 0x7F#8 ∧ (0x7F#8).getLsbD 7 = false := by decide
/-- A length one above the bound, one above the receive buffer, and a frame one byte longer than what was received. -/
theorem wit_DecodeLongLengthIsOverflow :
    (rpl 0 0x6E#8)[0]? = some ((0x37#7 : Addr).setWidth 8 <<< 1) ∧
    (rpl 0 0x6E#8)[1]? = some (0x80#8 ||| (8#7 : Len).setWidth 8) ∧
    3 ≤ (rpl 0 0x6E#8).length ∧ (rpl 0 0x6E#8).length ≤ s130.rxBufSize ∧ 7 < (8#7 : Len).toNat ∧
    ((rpl 0 0x6E#8).take 7).length ≤ (State.resetWith 7).rxBufSize ∧ (State.resetWith 7).rxBufSize < (8#7 : Len).toNat ∧
    ((rpl 0 0x6E#8).take 10).length < (8#7 : Len).toNat + 3 := by decide
/-- Both verdicts, at the bounds. -/
theorem wit_DecodeFoldDecidesPayload :
    (rpl 0 0x6E#8).length ≤ (State.resetWith 11).rxBufSize ∧
    (rpl 0 0x6E#8)[0]? = some ((0x37#7 : Addr).setWidth 8 <<< 1) ∧
    (rpl 0 0x6E#8)[1]? = some (0x80#8 ||| (8#7 : Len).setWidth 8) ∧ (8#7 : Len).toNat ≤ 8 ∧
    (8#7 : Len).toNat + 3 ≤ (rpl 0 0x6E#8).length ∧ fold 0x50#8 ((rpl 0 0x6E#8).take 11) = 0x00#8 ∧
    fold 0x50#8 ((rpl 10 0xF3#8).take 11) ≠ 0x00#8 := by decide
theorem wit_DecodeIgnoresTrailingBytes :
    (rpl 0 0x6E#8)[1]? = some 0x88#8 ∧ (rpl 0 0x6E#8).length = (0x88#8 &&& 0x7F#8).toNat + 3 ∧
    (rpl 0 0x6E#8 ++ [0xAA#8, 0x55#8]).length ≤ s130.rxBufSize ∧ (rpl 0 0x6E#8 ++ []).length ≤ s130.rxBufSize := by decide
theorem wit_DecodeAcceptsExactlyReplyImages :
    3 ≤ [0x6E#8, 0x80#8, 0xBE#8].length ∧ [0x6E#8, 0x80#8, 0xBE#8].length ≤ (State.resetWith 3).rxBufSize := by decide
theorem wit_ReplyImageDiffersInTwoBytes : (List.replicate 127 0x00#8).length ≤ 127 := by
  simp
/-- The base buffer of 95_test_vectors.md section 4 with one byte of tail, and a changed byte for each clause. -/
theorem wit_SingleByteErrorIsClassified :
    replyImage 0x37#7 [0xBF#8, 0x00#8] = [0x6E#8, 0x82#8, 0xBF#8, 0x00#8, 0x03#8] ∧
    [0xBF#8, 0x00#8].length ≤ 8 ∧ (replyImage 0x37#7 [0xBF#8, 0x00#8] ++ [0xAA#8]).length ≤ s130.rxBufSize ∧
    (∀ jv ∈ [(0, 0x51#8), (0, 0xFF#8), (0, 0x6C#8), (1, 0x02#8), (1, 0x81#8), (1, 0x83#8), (1, 0x84#8), (2, 0xBE#8),
        (4, 0x02#8), (5, 0xAB#8)],
      jv.1 < (replyImage 0x37#7 [0xBF#8, 0x00#8] ++ [0xAA#8]).length ∧
      (replyImage 0x37#7 [0xBF#8, 0x00#8] ++ [0xAA#8])[jv.1]? ≠ some jv.2) ∧
    0x84#8 = 0x80#8 ||| (4#7 : Len).setWidth 8 ∧ (replyImage 0x37#7 [0xBF#8, 0x00#8] ++ [0xAA#8]).length < (4#7 : Len).toNat + 3 ∧
    0x83#8 = 0x80#8 ||| (3#7 : Len).setWidth 8 ∧ (3#7 : Len).toNat + 3 ≤ (replyImage 0x37#7 [0xBF#8, 0x00#8] ++ [0xAA#8]).length := by
  decide
theorem wit_ChangedLengthMayDecodeSilently : 5 ≤ (State.resetWith 5).rxBufSize := by decide
theorem wit_DecodeWritesOnlyReceiveSide :
    3 ≤ [0x6E#8, 0x80#8, 0xBE#8].length ∧ [0x6E#8, 0x80#8, 0xBE#8].length ≤ (State.resetWith 3).rxBufSize := by decide
theorem wit_BusyHeadersAnswerBusy : 1 ≤ [0x02#8].length ∧ [0x02#8].length + 2 ≤ (State.resetWith 3).rxBufSize := by decide
theorem wit_MismatchHeaderAnswersMismatch :
    1 ≤ [0x02#8].length ∧ [0x02#8].length + 2 ≤ (State.resetWith 3).rxBufSize ∧
    (Instr.rxAddrMismatch 0x37#7 8 0x6F#8 0x88#8 [0x02#8]).wellFormed = true := by decide
theorem wit_UntaggedHeaderAnswersMissingTag :
    1 ≤ [0x02#8].length ∧ [0x02#8].length + 2 ≤ (State.resetWith 3).rxBufSize := by decide
/-- The three ways on from a frame header, with lengths at the bounds. -/
theorem wit_FrameHeaderGoesOnToChecks :
    1 ≤ [0xBE#8].length ∧ [0xBE#8].length + 2 ≤ (State.resetWith 3).rxBufSize ∧
    0 < (1#7 : Len).toNat ∧ [0xBE#8].length < (1#7 : Len).toNat + 1 ∧
    (0#7 : Len).toNat + 1 ≤ [0xBE#8].length ∧
    fold 0x50#8 (((0x37#7 : Addr).setWidth 8 <<< 1) :: (0x80#8 ||| (0#7 : Len).setWidth 8) :: [0xBE#8].take 1) = 0x00#8 ∧
    fold 0x50#8 (((0x37#7 : Addr).setWidth 8 <<< 1) :: (0x80#8 ||| (0#7 : Len).setWidth 8) :: [0xBF#8].take 1) ≠ 0x00#8 := by
  decide
theorem wit_HeadersOutOfBoundsAreBadRequest :
    ([] : List Byte) = [] ∧ (State.resetWith 3).rxBufSize < [0x02#8, 0x03#8].length + 2 := by decide
theorem wit_PresenceCheckIsFramed : (List.replicate 126 0x00#8).length ≤ 126 ∧ 126 < (List.replicate 127 0x00#8).length := by
  simp
theorem wit_ReadControlReplyIsDelivered :
    11 ≤ (State.resetWith 11).rxBufSize ∧ (State.resetWith 10).rxBufSize < 11 := by decide
theorem wit_CapabilitiesReplyIsDelivered :
    (List.replicate 124 0x00#8).length ≤ 124 ∧ (List.replicate 124 0x00#8).length + 6 ≤ s130.rxBufSize ∧
    (List.replicate 124 0x00#8).length + 3 ≤ 127 ∧ 126 < (List.replicate 124 0x00#8).length + 3 ∧
    (State.resetWith 129).rxBufSize < (List.replicate 124 0x00#8).length + 6 := by
  simp [s130, State.resetWith]

/-- A state that a run could leave: other register contents, a pending response, a request to run. -/
def busyState : State :=
  { s130 with
    inputs := [.request (encode (.save 0x37#7)), .reset, .resetDuring (encode (.save 0x37#7)), .request (.outMsg 0x05#8 0#7 [])]
    response := some ⟨.missingTag, [], [0x6E#8, 0x00#8, 0x3E#8]⟩
    acc := 0x77#8
    declLen := 5#7 }

theorem wit_SameRequestGivesSameResponse : s130.rxBufSize = busyState.rxBufSize ∧ s130 ≠ busyState := by decide
theorem wit_NoRegisterSurvivesAnOperation :
    (s130.withInputs busyState.inputs).inputs = busyState.inputs ∧ s130.rxBufSize = busyState.rxBufSize ∧
    s130.opCount = busyState.opCount ∧ s130.acc ≠ busyState.acc := by decide
theorem wit_RunAnswersEachRequestAlone :
    (∀ i ∈ [Instr.save 0x37#7], i.wellFormed = true) ∧
    busyState.inputs = [Instr.save 0x37#7].map (fun i => .request (encode i)) ++
      [.reset, .resetDuring (encode (.save 0x37#7)), .request (.outMsg 0x05#8 0#7 [])] := by decide
theorem wit_StepKeepsBuffersAndResponsesLegal : busyState.Inv ∧ ∃ t, step busyState = .next t := by
  refine ⟨⟨by decide, rfl, by decide, ?_⟩, _, rfl⟩
  intro r hr
  cases hr
  refine ⟨?_, ?_, ?_, ?_, ?_⟩ <;> decide
theorem wit_DecodeUndoesEncode : (Instr.rxAddrMismatch 0x37#7 8 0x6F#8 0x88#8 []).wellFormed = true := by decide
theorem wit_EncodeUndoesDecode :
    decode (.inHdr 0x6E88#16 0x37#7 8 []) = .rxReplyHdr 0x37#7 8 8#7 [] ∧
    ∀ c a m d, Request.inHdr 0x6E88#16 0x37#7 8 [] ≠ .port c a m d := by
  exact ⟨by decide, fun _ _ _ _ h => by cases h⟩
/-- A byte 0 and a byte 1 for each header class. -/
theorem wit_EveryPortRequestDecodes :
    0x6C#8 ≠ 0x51#8 ∧ 0x6C#8 ≠ 0xFF#8 ∧ 0x6C#8 ≠ (0x37#7 : Addr).setWidth 8 <<< 1 ∧
    0x6E#8 = (0x37#7 : Addr).setWidth 8 <<< 1 ∧ (0x7F#8).getLsbD 7 = false ∧ (0x80#8).getLsbD 7 = true := by decide
theorem wit_StepRunsDecodedInstruction :
    busyState.inputs = .request (encode (.save 0x37#7)) :: busyState.inputs.tail ∧
    decode (encode (.save 0x37#7)) = .save 0x37#7 := by decide
theorem wit_StepWithoutRequest :
    s130.inputs = [] ∧ (busyState.inputs.drop 1).head? = some .reset ∧
    (busyState.inputs.drop 2).head? = some (.resetDuring (encode (.save 0x37#7))) := by decide
theorem wit_StepNeverStops :
    busyState.inputs = .request (encode (.save 0x37#7)) :: busyState.inputs.tail ∧
    (s130.withInputs [.request (.outMsg 0x05#8 0#7 [])]).inputs = [.request (.outMsg 0x05#8 0#7 [])] := by decide

end Sys2Proof.Tests
end

section
/-! Scope: what one step does, and the invariant that every step keeps (00_scope.md sections 2 and 4). -/

namespace Sys2Proof.Machine

/-! ### What a step does -/

/-- A presented request is run whole (00_scope.md R2, 20_memory.md R38). -/
theorem step_of_request {s : State} {r : Request} {rest : List Input} (h : s.inputs = .request r :: rest) :
    step s = exec (decode r) (s.withInputs rest) := by
  simp only [step, h]

/-- A step idles, or reset discards what is in progress, or a presented request is run. -/
theorem step_cases {s t : State} (h : step s = .next t) :
    (s.inputs = [] ∧ t = s) ∨
    (∃ rest, (s.inputs = .reset :: rest ∨ ∃ r, s.inputs = .resetDuring r :: rest) ∧
      t = (s.withInputs rest).resetPulse) ∨
    (∃ r rest, s.inputs = .request r :: rest ∧ exec (decode r) (s.withInputs rest) = .next t) := by
  match hin : s.inputs with
  | [] =>
    simp only [step, hin, Host.Outcome.next.injEq] at h
    exact .inl ⟨rfl, h.symm⟩
  | .reset :: rest =>
    simp only [step, hin, Host.Outcome.next.injEq] at h
    exact .inr (.inl ⟨rest, .inl rfl, h.symm⟩)
  | .resetDuring r :: rest =>
    simp only [step, hin, Host.Outcome.next.injEq] at h
    exact .inr (.inl ⟨rest, .inr ⟨r, rfl⟩, h.symm⟩)
  | .request r :: rest =>
    rw [step_of_request hin] at h
    exact .inr (.inr ⟨r, rest, rfl, h⟩)

/-- Every instruction runs one of the block's operations: ENCODE, DECODE or the reserved one (30_encoding.md R49, R50,
R55). -/
theorem exec_cases (i : Instr) (s : State) :
    (∃ addr payload, exec i s = .next (s.encodeOp addr payload)) ∨
    (∃ addr maxLen rx, exec i s = .next (s.decodeOp addr maxLen rx)) ∨
    exec i s = .next s.reservedOp := by
  cases i with
  | encode | txHdr | rdctrlReq | wrctrl | save | capsReq | presence | bare => exact .inl ⟨_, _, rfl⟩
  | decode | rxBusy51 | rxBusyFF | rxAddrMismatch | rxMissingTag | rxReplyHdr | rdctrlReply | capsReply =>
    exact .inr (.inl ⟨_, _, _, rfl⟩)
  | reservedCmd00 | reservedCmd11 => exact .inr (.inr rfl)

/-! ### Legal responses -/

/-- An OK response no longer than the largest frame is legal (00_scope.md R10). -/
theorem legal_ok {out : List Byte} (n : Nat) (h : out.length ≤ 130) : Response.legal n ⟨.ok, out, []⟩ := by
  simp [Response.legal, Status.errorClass, h]

/-- A response that carries nothing is legal unless its status asks for diagnostic bytes (60_exceptions.md R104). -/
theorem legal_empty {status : Status} (n : Nat) (h : status.errorClass ≠ some .malformedFrame) :
    Response.legal n ⟨status, [], []⟩ := by
  simp [Response.legal, h]

/-- A MalformedFrame status with the received bytes is legal when the request bounds hold (10_state.md R18,
60_exceptions.md R104). -/
theorem legal_malformed {status : Status} {n : Nat} {rx : List Byte}
    (h : status.errorClass = some .malformedFrame) (hmin : 3 ≤ rx.length) (hmax : rx.length ≤ n) :
    Response.legal n ⟨status, [], rx⟩ := by
  simp [Response.legal, h, hmin, hmax]

/-- ENCODE answers legally, whatever the receive buffer's size (40_encode.md R56, R57). -/
theorem encodeAnswer_legal (n : Nat) (addr : Addr) (payload : List Byte) :
    (encodeAnswer addr payload).legal n := by
  unfold encodeAnswer
  split
  · exact legal_ok n (by simp; omega)
  · exact legal_empty n (by decide)

/-- A declared length has seven bits (30_encoding.md R42). -/
theorem and_lenMask_toNat_le (b : Byte) : (b &&& 0x7F#8).toNat ≤ 127 := by
  rw [← declaredLength_toNat]
  omega

/-- DECODE answers legally: each failed check gives its status alone, or with the received bytes (41_decode.md R78). -/
theorem decodeAnswer_legal (n : Nat) (addr : Addr) (maxLen : Nat) (rx : List Byte) :
    (decodeAnswer n addr maxLen rx).legal n := by
  by_cases h3 : rx.length < 3
  · match rx, h3 with
    | [], _ | [_], _ | [_, _], _ => exact legal_empty n (by decide)
  obtain ⟨b0, b1, b2, rest, rfl⟩ := three_bytes rx h3
  by_cases hn : n < (b0 :: b1 :: b2 :: rest).length
  · simp only [decodeAnswer, hn, if_true]
    exact legal_empty n (by decide)
  have malformed {status : Status} (h : status.errorClass = some .malformedFrame) :
      Response.legal n ⟨status, [], b0 :: b1 :: b2 :: rest⟩ := legal_malformed h (by omega) (by omega)
  simp only [decodeAnswer, hn, if_false]
  split_ifs
  · exact legal_empty n (by decide)
  · exact malformed rfl
  · exact malformed rfl
  · exact malformed rfl
  · exact malformed rfl
  · exact malformed rfl
  · have hout := List.length_take_le (b1 &&& 0x7F#8).toNat (b2 :: rest)
    have hlen := and_lenMask_toNat_le b1
    exact legal_ok n (by omega)

/-! ### The invariant

An operation writes or frees every transient register, so the state after it satisfies the invariant whatever those
registers held before: only the receive buffer's size is needed of the state it starts in. -/

/-- The invariant of a state whose response is known. -/
theorem State.inv_of_response {s : State} {r : Response} (hsize : 3 ≤ s.rxBufSize) (htxb : s.txb.length = 130)
    (hrxb : s.rxb.length ≤ s.rxBufSize) (hresp : s.response = some r) (hlegal : r.legal s.rxBufSize) : s.Inv := by
  refine ⟨hsize, htxb, hrxb, fun r' hr' => ?_⟩
  cases hresp.symm.trans hr'
  exact hlegal

/-- An operation begins, and reset ends, with buffers of their sizes and nothing pending (10_state.md R13, R26). -/
theorem State.beginOp_inv {s : State} (hsize : 3 ≤ s.rxBufSize) : s.beginOp.Inv :=
  ⟨hsize, s.beginOp_txb_length, by simp, fun _ h => nomatch h⟩

/-- ENCODE ends in a legal state. -/
theorem State.encodeOp_inv {s : State} (hsize : 3 ≤ s.rxBufSize) (addr : Addr) (payload : List Byte) :
    (s.encodeOp addr payload).Inv := by
  obtain ⟨-, hrx, hrxb, -, htxb⟩ := s.encodeOp_frame addr payload
  exact State.inv_of_response (by rwa [hrx]) htxb (by simp [hrx, hrxb]) (s.encodeOp_response addr payload)
    (encodeAnswer_legal _ addr payload)

/-- DECODE ends in a legal state: a buffer is loaded only within the request bounds (41_decode.md R66). -/
theorem State.decodeOp_inv {s : State} (hsize : 3 ≤ s.rxBufSize) (addr : Addr) (maxLen : Nat) (rx : List Byte) :
    (s.decodeOp addr maxLen rx).Inv := by
  obtain ⟨-, hrx, htxb, hrxb⟩ := s.decodeOp_frame addr maxLen rx
  have hload : (s.decodeOp addr maxLen rx).rxb.length ≤ s.rxBufSize := by
    rw [hrxb]
    split
    · simp
    · omega
  exact State.inv_of_response (by rwa [hrx]) (by rw [htxb, s.beginOp_txb_length]) (by rwa [hrx])
    (s.decodeOp_response addr maxLen rx) (by rw [hrx]; exact decodeAnswer_legal _ addr maxLen rx)

/-- A request with a reserved selector ends in a legal state (30_encoding.md R50). -/
theorem State.reservedOp_inv {s : State} (hsize : 3 ≤ s.rxBufSize) : s.reservedOp.Inv :=
  State.inv_of_response hsize s.beginOp_txb_length (by simp [State.reservedOp]) rfl (legal_empty _ (by decide))

/-- Every instruction ends in a legal state. -/
theorem exec_inv {i : Instr} {s t : State} (hsize : 3 ≤ s.rxBufSize) (h : exec i s = .next t) : t.Inv := by
  obtain ⟨addr, payload, he⟩ | ⟨addr, maxLen, rx, he⟩ | he := exec_cases i s
  · cases he.symm.trans h
    exact State.encodeOp_inv hsize addr payload
  · cases he.symm.trans h
    exact State.decodeOp_inv hsize addr maxLen rx
  · cases he.symm.trans h
    exact State.reservedOp_inv hsize

end Sys2Proof.Machine

open Sys2Proof Sys2Proof.Machine

/-- Settles O39: an idle step changes nothing, and reset and every operation end in a legal state. -/
theorem stepKeepsBuffersAndResponsesLegal : Obligations.StepKeepsBuffersAndResponsesLegal := by
  intro s t hinv hstep
  obtain ⟨-, rfl⟩ | ⟨rest, -, rfl⟩ | ⟨r, rest, -, hexec⟩ := step_cases hstep
  · exact hinv
  · exact State.beginOp_inv (s := s.withInputs rest) hinv.1
  · exact exec_inv (s := s.withInputs rest) hinv.1 hexec

/-- Settles O44: the step's equation for a presented request, at the instruction it decodes to. -/
theorem stepRunsDecodedInstruction : Obligations.StepRunsDecodedInstruction := by
  intro s r rest i hs hi
  rw [step_of_request hs, hi]

end

section
/-! Requests: what a request decodes to, and which request presents an instruction (30_encoding.md R49 to R53). -/

namespace Sys2Proof

/-! ### The class of a received buffer (30_encoding.md R51), an equivalence for each row -/

theorem headerClass_eq_busy51_iff (addr : Addr) (b0 b1 : Byte) :
    headerClass addr b0 b1 = .busy51 ↔ b0 = Config.busyA := by
  unfold headerClass
  split_ifs <;> simp_all

theorem headerClass_eq_busyFF_iff (addr : Addr) (b0 b1 : Byte) :
    headerClass addr b0 b1 = .busyFF ↔ b0 = Config.busyB := by
  have hne : Config.busyA ≠ Config.busyB := by decide
  unfold headerClass
  split_ifs <;> simp_all

theorem headerClass_eq_addressMismatch_iff (addr : Addr) (b0 b1 : Byte) :
    headerClass addr b0 b1 = .addressMismatch ↔
      b0 ≠ Config.busyA ∧ b0 ≠ Config.busyB ∧ b0 ≠ addressByte addr := by
  unfold headerClass
  split_ifs <;> simp_all

/-- The busy rows need no exception: the address byte is even (R47). -/
theorem headerClass_eq_missingTag_iff (addr : Addr) (b0 b1 : Byte) :
    headerClass addr b0 b1 = .missingTag ↔ b0 = addressByte addr ∧ tagBit b1 = false := by
  obtain ⟨hA, hB, -⟩ := addressByte_not_busy addr
  by_cases h0 : b0 = addressByte addr
  · subst h0
    simp [headerClass, hA, hB]
  · unfold headerClass
    split_ifs <;> simp [h0]

theorem headerClass_eq_frameHeader_iff (addr : Addr) (b0 b1 : Byte) :
    headerClass addr b0 b1 = .frameHeader ↔ b0 = addressByte addr ∧ tagBit b1 = true := by
  obtain ⟨hA, hB, -⟩ := addressByte_not_busy addr
  by_cases h0 : b0 = addressByte addr
  · subst h0
    simp [headerClass, hA, hB]
  · unfold headerClass
    split_ifs <;> simp [h0]

/-- The declared length is the marker without its tag bit (30_encoding.md R45). -/
theorem declaredLength_eq_setWidth (b : Byte) : declaredLength b = b.setWidth 7 := by
  revert b; decide

/-! ### The selector of the codec's port (30_encoding.md R49, R50) -/

theorem decodePort_cases (cmd : BitVec 2) (addr : Addr) (maxLen : Nat) (data : List Byte) :
    (cmd = 0b01#2 ∧ decodePort cmd addr maxLen data = .encode addr data) ∨
    (cmd = 0b10#2 ∧ decodePort cmd addr maxLen data = .decode addr maxLen data) ∨
    (cmd = 0b00#2 ∧ decodePort cmd addr maxLen data = .reservedCmd00) ∨
    (cmd = 0b11#2 ∧ decodePort cmd addr maxLen data = .reservedCmd11) := by
  have hcmd : cmd = 0b01#2 ∨ cmd = 0b10#2 ∨ cmd = 0b00#2 ∨ cmd = 0b11#2 := by revert cmd; decide
  obtain rfl | rfl | rfl | rfl := hcmd
  · exact .inl ⟨rfl, rfl⟩
  · exact .inr (.inl ⟨rfl, rfl⟩)
  · exact .inr (.inr (.inl ⟨rfl, rfl⟩))
  · exact .inr (.inr (.inr ⟨rfl, rfl⟩))

theorem decodePort_wellFormed (cmd : BitVec 2) (addr : Addr) (maxLen : Nat) (data : List Byte) :
    (decodePort cmd addr maxLen data).wellFormed = true := by
  obtain ⟨-, h⟩ | ⟨-, h⟩ | ⟨-, h⟩ | ⟨-, h⟩ := decodePort_cases cmd addr maxLen data <;> rw [h] <;> rfl

/-! ### The other forms: a request is either a plain ENCODE or DECODE, or the one presentation of its row -/

/-- The instruction `i` is a plain ENCODE or DECODE, or a well-formed one whose presentation is `r`. -/
def PlainOrPresentedBy (r : Request) (i : Instr) : Prop :=
  (∃ addr payload, i = .encode addr payload) ∨ (∃ addr maxLen rx, i = .decode addr maxLen rx) ∨
    (i.wellFormed = true ∧ encode i = r)

theorem PlainOrPresentedBy.of_encode (r : Request) (addr : Addr) (payload : List Byte) :
    PlainOrPresentedBy r (.encode addr payload) := .inl ⟨addr, payload, rfl⟩

theorem PlainOrPresentedBy.of_decode (r : Request) (addr : Addr) (maxLen : Nat) (rx : List Byte) :
    PlainOrPresentedBy r (.decode addr maxLen rx) := .inr (.inl ⟨addr, maxLen, rx, rfl⟩)

theorem PlainOrPresentedBy.of_row {r : Request} {i : Instr} (hwf : i.wellFormed = true) (henc : encode i = r) :
    PlainOrPresentedBy r i := .inr (.inr ⟨hwf, henc⟩)

theorem PlainOrPresentedBy.ite_encode {r : Request} {i : Instr} {c : Prop} [Decidable c] (addr : Addr)
    (payload : List Byte) (hwf : i.wellFormed = true) (henc : c → encode i = r) :
    PlainOrPresentedBy r (if c then i else .encode addr payload) := by
  split
  next h => exact .of_row hwf (henc h)
  next => exact .of_encode r addr payload

theorem PlainOrPresentedBy.wellFormed {r : Request} {i : Instr} (h : PlainOrPresentedBy r i) :
    i.wellFormed = true := by
  obtain ⟨addr, payload, rfl⟩ | ⟨addr, maxLen, rx, rfl⟩ | ⟨hwf, -⟩ := h
  · rfl
  · rfl
  · exact hwf

theorem PlainOrPresentedBy.encode_eq {r : Request} {i : Instr} (h : PlainOrPresentedBy r i)
    (hne : ∀ addr payload, i ≠ .encode addr payload) (hnd : ∀ addr maxLen rx, i ≠ .decode addr maxLen rx) :
    encode i = r := by
  obtain ⟨addr, payload, he⟩ | ⟨addr, maxLen, rx, hd⟩ | ⟨-, henc⟩ := h
  · exact absurd he (hne addr payload)
  · exact absurd hd (hnd addr maxLen rx)
  · exact henc

/-- Under the TX_HDR row's condition the header is the one ENCODE writes (30_encoding.md R40, R44). -/
theorem decodeOutHdr_plainOrPresentedBy (hdr : Half) (addr : Addr) (payload : List Byte) :
    PlainOrPresentedBy (.outHdr hdr addr payload) (decodeOutHdr hdr addr payload) := by
  unfold decodeOutHdr
  split
  next h =>
    obtain ⟨hsrc, htag, hlen⟩ := h
    have hhdr : joinBytes Config.srcMarker (packMarker (declaredLength (lowByte hdr)).toNat) = hdr := by
      rw [packMarker_declaredLength _ htag, ← hsrc, joinBytes_highByte_lowByte]
    exact .of_row (by simp [Instr.wellFormed, hlen]) (by rw [encode, hhdr])
  next => exact .of_encode _ addr payload

/-- The row of a header class fixes the two bytes that its instruction does not carry (30_encoding.md R51). -/
theorem decodeInHdr_plainOrPresentedBy (hdr : Half) (addr : Addr) (maxLen : Nat) (rest : List Byte) :
    PlainOrPresentedBy (.inHdr hdr addr maxLen rest) (decodeInHdr hdr addr maxLen rest) := by
  have hjoin := joinBytes_highByte_lowByte hdr
  unfold decodeInHdr
  split
  next h =>
    rw [headerClass_eq_busy51_iff] at h
    exact .of_row rfl (by rw [encode, ← h, hjoin])
  next h =>
    rw [headerClass_eq_busyFF_iff] at h
    exact .of_row rfl (by rw [encode, ← h, hjoin])
  next h => exact .of_row (by simp [Instr.wellFormed, h]) (by rw [encode, hjoin])
  next h =>
    obtain ⟨h0, htag⟩ := (headerClass_eq_missingTag_iff ..).1 h
    exact .of_row rfl (by rw [encode, setWidth_declaredLength _ htag, ← h0, hjoin])
  next h =>
    obtain ⟨h0, htag⟩ := (headerClass_eq_frameHeader_iff ..).1 h
    exact .of_row rfl (by rw [encode, packMarker_declaredLength _ htag, ← h0, hjoin])

/-- A message with a row's opcode and length is that row's payload, its 16-bit field high byte first
(45_payload_layouts.md R84 to R91). -/
theorem decodeOutMsg_plainOrPresentedBy (op : Byte) (addr : Addr) (rest : List Byte) :
    PlainOrPresentedBy (.outMsg op addr rest) (decodeOutMsg op addr rest) := by
  unfold decodeOutMsg
  split
  next h => exact .of_row rfl (by rw [encode, h])
  next =>
    split
    next => exact .ite_encode _ _ rfl fun h => by rw [encode, h]
    next => exact .ite_encode _ _ rfl fun h => by rw [encode, h]
    next => exact .ite_encode _ _ rfl fun h => by simp [encode, h]
    next => exact .ite_encode _ _ rfl fun h => by simp [encode, h]
    next => exact .of_encode ..

/-- A reply with a row's layout is the reply image of that row's payload (41_decode.md R79; 45_payload_layouts.md R86,
R90, R94). -/
theorem decodeInMsg_plainOrPresentedBy (addr : Addr) (maxLen : Nat) (rx : List Byte) :
    PlainOrPresentedBy (.inMsg addr maxLen rx) (decodeInMsg addr maxLen rx) := by
  unfold decodeInMsg
  split
  next himage =>
    obtain ⟨hrx, hlen⟩ := himage
    split
    next op x y rest hp =>
      rw [hp] at hrx hlen
      split
      next hop =>
        have hpayload : capsReplyPayload (joinBytes x y) rest = op :: x :: y :: rest := by
          simp [capsReplyPayload, hop]
        refine .of_row ?_ (by rw [encode, hpayload, ← hrx])
        rw [Instr.wellFormed, hpayload]
        exact decide_eq_true hlen
      next =>
        split
        next hrow =>
          obtain ⟨hop, hmax⟩ := hrow
          split
          next => exact .of_row rfl (by simp [encode, rdctrlReplyPayload, ← hop, ← hmax, ← hrx])
          next => exact .of_decode ..
        next => exact .of_decode ..
    next => exact .of_decode ..
  next => exact .of_decode ..

/-- Only a port record can have fields that its instruction does not carry (10_state.md R14, R27). -/
theorem decode_plainOrPresentedBy {r : Request} (hport : ∀ cmd addr maxLen data, r ≠ .port cmd addr maxLen data) :
    PlainOrPresentedBy r (decode r) := by
  cases r with
  | port cmd addr maxLen data => exact absurd rfl (hport cmd addr maxLen data)
  | outHdr hdr addr payload => exact decodeOutHdr_plainOrPresentedBy hdr addr payload
  | inHdr hdr addr maxLen rest => exact decodeInHdr_plainOrPresentedBy hdr addr maxLen rest
  | outMsg op addr rest => exact decodeOutMsg_plainOrPresentedBy op addr rest
  | inMsg addr maxLen rx => exact decodeInMsg_plainOrPresentedBy addr maxLen rx
  | bareMsg op addr => exact .of_row rfl rfl

/-- Every request is a well-formed instruction (10_state.md R27, 60_exceptions.md R105). -/
theorem decode_wellFormed (r : Request) : (decode r).wellFormed = true := by
  by_cases h : ∃ cmd addr maxLen data, r = .port cmd addr maxLen data
  · obtain ⟨cmd, addr, maxLen, data, rfl⟩ := h
    exact decodePort_wellFormed cmd addr maxLen data
  · exact (decode_plainOrPresentedBy fun cmd addr maxLen data hr => h ⟨cmd, addr, maxLen, data, hr⟩).wellFormed

end Sys2Proof

open Sys2Proof Sys2Proof.Machine

/-- Settles O42: form by form, a request is plain or the one presentation of its row. -/
theorem encodeUndoesDecode : Obligations.EncodeUndoesDecode :=
  fun r => ⟨decode_wellFormed r, fun hport hne hnd => (decode_plainOrPresentedBy hport).encode_eq hne hnd⟩

/-- Settles O43: the port by its selector, a received buffer by the class of its first two bytes. -/
theorem everyPortRequestDecodes : Obligations.EveryPortRequestDecodes := by
  intro c b0 b1 a m d
  have hdecode : decode (.inHdr (b0 ++ b1) a m d) = decodeInHdr (joinBytes b0 b1) a m d := by
    rw [append_eq_joinBytes, decode]
  simp only [hdecode, decodeInHdr, highByte_joinBytes, lowByte_joinBytes]
  refine ⟨decodePort_cases c a m d, fun h => ?_, fun h => ?_, fun hA hB h => ?_, fun h htag => ?_, fun h htag => ?_⟩
  · rw [(headerClass_eq_busy51_iff ..).2 h]
  · rw [(headerClass_eq_busyFF_iff ..).2 h]
  · rw [(headerClass_eq_addressMismatch_iff ..).2 ⟨hA, hB, h⟩]
  · rw [(headerClass_eq_missingTag_iff ..).2 ⟨h, htag⟩, declaredLength_eq_setWidth]
  · rw [(headerClass_eq_frameHeader_iff ..).2 ⟨h, htag⟩, declaredLength_eq_setWidth]

end

section
/-! State: what an operation leaves unchanged, that nothing else outlives it, and reset (10_state.md sections 1, 4 and
6). -/

namespace Sys2Proof.Machine

/-- Which operation an instruction runs, in every state with the same operands (30_encoding.md R49, R50, R55). -/
theorem exec_uniform (i : Instr) :
    (encodes i = true ∧ ∃ addr payload, ∀ s, exec i s = .next (s.encodeOp addr payload)) ∨
    (encodes i = false ∧ ∃ addr maxLen rx, ∀ s, exec i s = .next (s.decodeOp addr maxLen rx)) ∨
    (encodes i = false ∧ ∀ s, exec i s = .next s.reservedOp) := by
  cases i with
  | encode | txHdr | rdctrlReq | wrctrl | save | capsReq | presence | bare =>
    exact .inl ⟨rfl, _, _, fun _ => rfl⟩
  | decode | rxBusy51 | rxBusyFF | rxAddrMismatch | rxMissingTag | rxReplyHdr | rdctrlReply | capsReply =>
    exact .inr (.inl ⟨rfl, _, _, _, fun _ => rfl⟩)
  | reservedCmd00 | reservedCmd11 => exact .inr (.inr ⟨rfl, fun _ => rfl⟩)

/-! ### An operation sees only the state it begins in (10_state.md R13) -/

theorem State.beginOp_congr {s u : State} (hin : s.inputs = u.inputs) (hsize : s.rxBufSize = u.rxBufSize)
    (hcount : s.opCount = u.opCount) : s.beginOp = u.beginOp := by
  simp only [State.beginOp, hin, hsize, hcount]

theorem exec_congr (i : Instr) {s u : State} (h : s.beginOp = u.beginOp) : exec i s = exec i u := by
  obtain ⟨-, addr, payload, he⟩ | ⟨-, addr, maxLen, rx, he⟩ | ⟨-, he⟩ := exec_uniform i
  · rw [he, he, State.encodeOp, State.encodeOp, h]
  · rw [he, he, State.decodeOp, State.decodeOp, h]
  · rw [he, he, State.reservedOp, State.reservedOp, h]

/-! ### What an operation leaves unchanged (10_state.md R19, R20; 20_memory.md R36) -/

theorem State.encodeOp_sameOutside (s : State) (addr : Addr) (payload : List Byte) :
    State.SameOutside s (s.encodeOp addr payload) := by
  obtain ⟨hin, hsize, -⟩ := s.encodeOp_frame addr payload
  exact ⟨hin, hsize⟩

theorem State.decodeOp_sameOutside (s : State) (addr : Addr) (maxLen : Nat) (rx : List Byte) :
    State.SameOutside s (s.decodeOp addr maxLen rx) := by
  obtain ⟨hin, hsize, -⟩ := s.decodeOp_frame addr maxLen rx
  exact ⟨hin, hsize⟩

theorem State.reservedOp_sameOutside (s : State) : State.SameOutside s s.reservedOp := ⟨rfl, rfl⟩

/-- Every instruction answers, and leaves alone what the outside presents (10_state.md R16, R27). -/
theorem exec_answers (i : Instr) (s : State) :
    ∃ t q, exec i s = .next t ∧ t.response = some q ∧ State.SameOutside s t := by
  obtain ⟨addr, payload, he⟩ | ⟨addr, maxLen, rx, he⟩ | he := exec_cases i s
  · exact ⟨_, _, he, s.encodeOp_response addr payload, s.encodeOp_sameOutside addr payload⟩
  · exact ⟨_, _, he, s.decodeOp_response addr maxLen rx, s.decodeOp_sameOutside addr maxLen rx⟩
  · exact ⟨_, _, he, rfl, s.reservedOp_sameOutside⟩

/-! ### Reset (10_state.md R26) -/

theorem State.resetWith_inv {n : Nat} (h : 3 ≤ n) : (State.resetWith n).Inv :=
  ⟨h, List.length_replicate, Nat.zero_le n, fun _ hr => nomatch hr⟩

/-- `RX_BUF_SIZE` is at least 3 (00_scope.md R9). -/
theorem three_le_rxBufSize : 3 ≤ Config.rxBufSize := Nat.le_add_left 3 _

end Sys2Proof.Machine

open Sys2Proof Sys2Proof.Machine

/-- Settles O2: ENCODE's end state is the state it begins in with the frame, the checksum and the response. -/
theorem encodeWritesOnlyItsFrameBytes : Obligations.EncodeWritesOnlyItsFrameBytes := by
  intro s a p hp
  have hlen : p.length + 3 = (outboundFrame a p).length := (outboundFrame_length a p).symm
  refine ⟨_, ⟨.ok, outboundFrame a p, []⟩, congrArg Host.Outcome.next (s.encodeOp_short a p hp), rfl,
    outboundFrame_length a p, ?_, ?_, fun i hi => ?_, ?_, rfl, rfl, rfl, rfl⟩
  · rw [hlen, List.take_left]
  · exact List.getElem?_concat_length
  · rw [List.getElem?_append_right (by omega), List.getElem?_drop, ← hlen, Nat.add_sub_cancel' hi]
  · rw [List.length_append, List.length_drop, ← hlen, s.beginOp_txb_length]
    omega

/-- Settles O20: DECODE's frame, within the request bounds. -/
theorem decodeWritesOnlyReceiveSide : Obligations.DecodeWritesOnlyReceiveSide := by
  intro s a m rx
  obtain ⟨-, -, htxb, hrxb⟩ := s.decodeOp_frame a m rx
  exact ⟨_, rfl, htxb, fun _ _ => by rw [hrxb, if_neg (by omega)], s.decodeOp_sameOutside a m rx⟩

/-- Settles O36: the two states begin the operation alike. -/
theorem noRegisterSurvivesAnOperation : Obligations.NoRegisterSurvivesAnOperation := by
  intro i s u hin hsize hcount
  obtain ⟨t, -, ht, -, -⟩ := exec_answers i s
  exact ⟨t, ht, (exec_congr i (State.beginOp_congr hin hsize hcount)).symm.trans ht⟩

/-- Settles O37: by the operation that the instruction runs. -/
theorem operationsWriteOneSideOnly : Obligations.OperationsWriteOneSideOnly := by
  intro i s
  obtain ⟨hi, addr, payload, he⟩ | ⟨hi, addr, maxLen, rx, he⟩ | ⟨hi, he⟩ := exec_uniform i
  · obtain ⟨-, -, hrxb, hlen, -⟩ := s.encodeOp_frame addr payload
    exact ⟨_, he s, s.encodeOp_sameOutside addr payload, fun _ => ⟨hrxb, hlen⟩,
      fun h => absurd (h.symm.trans hi) Bool.false_ne_true⟩
  · obtain ⟨-, -, htxb, -⟩ := s.decodeOp_frame addr maxLen rx
    exact ⟨_, he s, s.decodeOp_sameOutside addr maxLen rx,
      fun h => absurd (hi.symm.trans h) Bool.false_ne_true, fun _ => htxb⟩
  · exact ⟨_, he s, s.reservedOp_sameOutside, fun h => absurd (hi.symm.trans h) Bool.false_ne_true, fun _ => rfl⟩

/-- Settles O47: idle and reset go on to a next state, and every instruction answers. -/
theorem stepNeverStops : Obligations.StepNeverStops := by
  intro s
  match hin : s.inputs with
  | [] => exact ⟨s, by rw [step, hin], fun _ _ h => nomatch h⟩
  | .reset :: rest => exact ⟨(s.withInputs rest).resetPulse, by rw [step, hin], fun _ _ h => nomatch h⟩
  | .resetDuring _ :: rest => exact ⟨(s.withInputs rest).resetPulse, by rw [step, hin], fun _ _ h => nomatch h⟩
  | .request r :: rest =>
    obtain ⟨t, q, hexec, hresp, hsame, -⟩ := exec_answers (decode r) (s.withInputs rest)
    refine ⟨t, (step_of_request hin).trans hexec, fun r' rest' h => ?_⟩
    cases h
    exact ⟨q, hresp, hsame⟩

/-- Settles O40: the reset state's fields, for a size of at least 3. -/
theorem resetIsIdleAndLegal : Obligations.ResetIsIdleAndLegal :=
  ⟨three_le_rxBufSize, State.resetWith_inv three_le_rxBufSize, rfl, fun _ hn => ⟨State.resetWith_inv hn, rfl, rfl⟩⟩

end

section
/-! Memory: the response is a function of the instruction and of `RX_BUF_SIZE` alone (20_memory.md R36). -/

namespace Sys2Proof.Machine

/-- What an instruction answers, by the operation it runs (10_state.md R13, R21). -/
theorem exec_response {i : Instr} {s t : State} (h : exec i s = .next t) :
    t.response = some (answer s.rxBufSize i) := by
  cases i with
  | encode | txHdr | rdctrlReq | wrctrl | save | capsReq | presence | bare =>
    cases h
    exact s.encodeOp_response _ _
  | decode | rxBusy51 | rxBusyFF | rxAddrMismatch | rxMissingTag | rxReplyHdr | rdctrlReply | capsReply =>
    cases h
    exact s.decodeOp_response _ _ _
  | reservedCmd00 | reservedCmd11 =>
    cases h
    rfl

end Sys2Proof.Machine

open Sys2Proof Sys2Proof.Machine

/-- Settles O35: in both states the response is `answer` of their common size. -/
theorem sameRequestGivesSameResponse : Obligations.SameRequestGivesSameResponse := by
  intro i s u hsize
  obtain ⟨t, -, ht, -, hst⟩ := exec_answers i s
  obtain ⟨v, -, hv, -, huv⟩ := exec_answers i u
  exact ⟨t, v, answer s.rxBufSize i, ht, hv, exec_response ht, hsize ▸ exec_response hv, hst, huv⟩

end

section
/-! Encoding: the decoder undoes the encoder, every form of request runs as the ENCODE or DECODE of its bytes, and what
the operations answer by the first two bytes of a frame (30_encoding.md sections 1 to 6). -/

namespace Sys2Proof

/-! ### The decoder on what the encoder presents (30_encoding.md R40, R49, R51) -/

/-- The header row's own marker announces its length (R44, R45). -/
theorem decodeOutHdr_joinBytes_packMarker (addr : Addr) (length : Len) {payload : List Byte}
    (h : payload.length = length.toNat) :
    decodeOutHdr (joinBytes Config.srcMarker (packMarker length.toNat)) addr payload = .txHdr addr length payload := by
  simp [decodeOutHdr, tagBit_packMarker, declaredLength_packMarker, h]

/-- A reply image of eight bytes is read by the read-control layout (45_payload_layouts.md R86, R94). -/
theorem decodeInMsg_rdctrlReply (addr : Addr) (validity id reserved : Byte) (maximum current : Half) :
    decodeInMsg addr Config.controlReplyBound
        (replyImage addr (rdctrlReplyPayload validity id reserved maximum current)) =
      .rdctrlReply addr validity id reserved maximum current := by
  have hop : Config.opRdctrlReply ≠ Config.opCapsReply := by decide
  simp [decodeInMsg, rdctrlReplyPayload, Config.maxPayload, hop]

/-- A reply image of at least three bytes is read by the capabilities layout (45_payload_layouts.md R90). -/
theorem decodeInMsg_capsReply (addr : Addr) (maxLen : Nat) (offset : Half) (data : List Byte)
    (h : (capsReplyPayload offset data).length ≤ Config.maxPayload) :
    decodeInMsg addr maxLen (replyImage addr (capsReplyPayload offset data)) = .capsReply addr maxLen offset data := by
  simp only [decodeInMsg, carriedPayload_replyImage, h, and_self, if_true]
  simp [capsReplyPayload]

/-- Row by row, the encoder's bytes meet the condition under which the decoder reads that row. -/
theorem decode_encode {i : Instr} (h : i.wellFormed = true) : decode (encode i) = i := by
  cases i with
  | encode | decode | reservedCmd00 | reservedCmd11 => rfl
  | txHdr addr length payload => exact decodeOutHdr_joinBytes_packMarker addr length (by simpa [Instr.wellFormed] using h)
  | rxBusy51 addr maxLen b1 rest =>
    obtain ⟨-, hrow, -⟩ := everyPortRequestDecodes 0#2 Config.busyA b1 addr maxLen rest
    rw [encode, ← append_eq_joinBytes, hrow rfl]
  | rxBusyFF addr maxLen b1 rest =>
    obtain ⟨-, -, hrow, -⟩ := everyPortRequestDecodes 0#2 Config.busyB b1 addr maxLen rest
    rw [encode, ← append_eq_joinBytes, hrow rfl]
  | rxAddrMismatch addr maxLen b0 b1 rest =>
    obtain ⟨-, -, -, hrow, -⟩ := everyPortRequestDecodes 0#2 b0 b1 addr maxLen rest
    obtain ⟨hA, hB, haddr⟩ := (headerClass_eq_addressMismatch_iff addr b0 b1).1 (eq_of_beq h)
    rw [encode, ← append_eq_joinBytes, hrow hA hB haddr]
  | rxMissingTag addr maxLen low rest =>
    obtain ⟨-, -, -, -, hrow, -⟩ := everyPortRequestDecodes 0#2 (addressByte addr) (low.setWidth 8) addr maxLen rest
    obtain ⟨htag, hlow⟩ := tagBit_setWidth low
    rw [encode, ← append_eq_joinBytes, hrow rfl htag, ← declaredLength_eq_setWidth, hlow]
  | rxReplyHdr addr maxLen length rest =>
    obtain ⟨-, -, -, -, -, hrow⟩ :=
      everyPortRequestDecodes 0#2 (addressByte addr) (packMarker length.toNat) addr maxLen rest
    rw [encode, ← append_eq_joinBytes, hrow rfl (tagBit_packMarker length), ← declaredLength_eq_setWidth,
      declaredLength_packMarker]
  | rdctrlReq | save => rfl
  | wrctrl addr id value =>
    change Instr.wrctrl addr id (joinBytes (highByte value) (lowByte value)) = _
    rw [joinBytes_highByte_lowByte]
  | capsReq addr offset =>
    change Instr.capsReq addr (joinBytes (highByte offset) (lowByte offset)) = _
    rw [joinBytes_highByte_lowByte]
  | rdctrlReply addr validity id reserved maximum current =>
    exact decodeInMsg_rdctrlReply addr validity id reserved maximum current
  | capsReply addr maxLen offset data => exact decodeInMsg_capsReply addr maxLen offset data (of_decide_eq_true h)
  | presence | bare => rfl

/-! ### What a presented request stands for: the ENCODE or DECODE of its bytes (30_encoding.md R51, R55) -/

theorem decodeOutHdr_expansion (hdr : Half) (addr : Addr) (payload : List Byte) :
    (decodeOutHdr hdr addr payload).expansion = .encode addr payload := by
  unfold decodeOutHdr
  split <;> rfl

/-- The row of a header class puts back the two bytes that select it (R51). -/
theorem decodeInHdr_expansion (hdr : Half) (addr : Addr) (maxLen : Nat) (rest : List Byte) :
    (decodeInHdr hdr addr maxLen rest).expansion = .decode addr maxLen (highByte hdr :: lowByte hdr :: rest) := by
  unfold decodeInHdr
  split
  next h => rw [Instr.expansion, (headerClass_eq_busy51_iff ..).1 h]
  next h => rw [Instr.expansion, (headerClass_eq_busyFF_iff ..).1 h]
  next => rfl
  next h =>
    obtain ⟨h0, htag⟩ := (headerClass_eq_missingTag_iff ..).1 h
    rw [Instr.expansion, setWidth_declaredLength _ htag, h0]
  next h =>
    obtain ⟨h0, htag⟩ := (headerClass_eq_frameHeader_iff ..).1 h
    rw [Instr.expansion, packMarker_declaredLength _ htag, h0]

theorem expansion_ite_encode {c : Prop} [Decidable c] {i : Instr} {addr : Addr} {payload : List Byte}
    (h : c → i.expansion = .encode addr payload) :
    (if c then i else .encode addr payload).expansion = .encode addr payload := by
  split
  next hc => exact h hc
  next => rfl

/-- A row's payload layout puts back the opcode and the bytes after it (45_payload_layouts.md R84 to R91). -/
theorem decodeOutMsg_expansion (op : Byte) (addr : Addr) (rest : List Byte) :
    (decodeOutMsg op addr rest).expansion = .encode addr (op :: rest) := by
  unfold decodeOutMsg
  split
  next h => rw [h]; rfl
  next =>
    split
    next => exact expansion_ite_encode fun h => by rw [h]; rfl
    next => exact expansion_ite_encode fun h => by rw [h]; rfl
    next => exact expansion_ite_encode fun h => by simp [Instr.expansion, capsPayload, h]
    next => exact expansion_ite_encode fun h => by simp [Instr.expansion, wrctrlPayload, h]
    next => rfl

/-- A reply row puts back the reply image that the buffer is (41_decode.md R79). -/
theorem decodeInMsg_expansion (addr : Addr) (maxLen : Nat) (rx : List Byte) :
    (decodeInMsg addr maxLen rx).expansion = .decode addr maxLen rx := by
  unfold decodeInMsg
  split
  next himage =>
    obtain ⟨hrx, -⟩ := himage
    split
    next op x y rest hp =>
      rw [hp] at hrx
      split
      next hop => simp [Instr.expansion, capsReplyPayload, ← hop, ← hrx]
      next =>
        split
        next hrow =>
          obtain ⟨hop, hmax⟩ := hrow
          split
          next => simp [Instr.expansion, rdreply, rdctrlReplyPayload, ← hop, ← hmax, ← hrx]
          next => rfl
        next => rfl
    next => rfl
  next => rfl

/-! ### The length of a frame (30_encoding.md R48) -/

theorem frameLength_packMarker {n : Nat} (h : n ≤ 127) : frameLength (packMarker n) = some (n + 3) := by
  obtain ⟨htag, hlen⟩ := declaredLength_packMarker_nat h
  simp [frameLength, htag, hlen]

end Sys2Proof

namespace Sys2Proof.Machine

/-- A row is its expansion under another name (30_encoding.md R55, 45_payload_layouts.md R83). -/
theorem exec_expansion (i : Instr) (s : State) : exec i.expansion s = exec i s := by
  cases i <;> rfl

/-- A request whose instruction stands for `j` runs as `j`. -/
theorem exec_eq_of_expansion {i j : Instr} (h : i.expansion = j) (s : State) : exec i s = exec j s := by
  rw [← h, exec_expansion]

/-! ### The outbound frame (30_encoding.md R40, R46) -/

theorem State.encodeOp_response_short (s : State) (addr : Addr) {p : List Byte} (h : p.length ≤ 127) :
    (s.encodeOp addr p).response = some ⟨.ok, outboundFrame addr p, []⟩ := by
  rw [State.encodeOp_short s addr p h]

theorem outboundFrame_take_body (addr : Addr) (p : List Byte) :
    (outboundFrame addr p).take (p.length + 2) = outboundBody p :=
  List.take_left (l₁ := outboundBody p)

theorem outboundFrame_checksum (addr : Addr) (p : List Byte) :
    (outboundFrame addr p)[p.length + 2]? = some (fold (addr.setWidth 8 <<< 1) (outboundBody p)) :=
  List.getElem?_concat_length

theorem outboundFrame_payload (addr : Addr) (p : List Byte) :
    ((outboundFrame addr p).drop 2).take p.length = p := List.take_left

/-! ### A buffer that DECODE accepts (41_decode.md R72, R75) -/

/-- An OK buffer's byte 1 has the tag bit, and the payload is as many bytes as it declares, all received. -/
theorem decodeAnswer_ok {n : Nat} {addr : Addr} {maxLen : Nat} {rx : List Byte}
    (h : (decodeAnswer n addr maxLen rx).status = .ok) :
    ∃ b1, rx[1]? = some b1 ∧ tagBit b1 = true ∧ (declaredLength b1).toNat + 3 ≤ rx.length ∧
      (decodeAnswer n addr maxLen rx).out = (rx.drop 2).take (declaredLength b1).toNat := by
  match rx, h with
  | b0 :: b1 :: b2 :: rest, h =>
    refine ⟨b1, rfl, ?_⟩
    simp only [decodeAnswer, ← declaredLength_toNat] at h ⊢
    split_ifs at h ⊢ with _ _ _ htag _ hlen
    exact ⟨eq_true_of_ne_false htag, Nat.le_of_not_lt hlen, rfl⟩

theorem decodeAnswer_ok_frameLength {n : Nat} {addr : Addr} {maxLen : Nat} {rx : List Byte}
    (h : (decodeAnswer n addr maxLen rx).status = .ok) :
    ∃ b, rx[1]? = some b ∧ frameLength b = some ((decodeAnswer n addr maxLen rx).out.length + 3) ∧
      (decodeAnswer n addr maxLen rx).out.length + 3 ≤ rx.length := by
  obtain ⟨b, hb, htag, hlen, hout⟩ := decodeAnswer_ok h
  have houtlen : (decodeAnswer n addr maxLen rx).out.length = (declaredLength b).toNat := by
    rw [hout, List.length_take, List.length_drop]
    omega
  exact ⟨b, hb, by rw [frameLength, htag, if_pos rfl, houtlen], houtlen ▸ hlen⟩

/-! ### What DECODE answers, by the class of the first two bytes (30_encoding.md R51)

Within the request bounds of 41_decode.md R66: at least one byte after the header, and no more than the receive buffer
takes. -/

section InBounds

variable {n : Nat} {addr : Addr} {maxLen : Nat} {b0 b1 : Byte} {rest : List Byte}
  (hmin : 1 ≤ rest.length) (hmax : rest.length + 2 ≤ n)

include hmin hmax

theorem decodeAnswer_of_busy (h : b0 = 0x51#8 ∨ b0 = 0xFF#8) :
    decodeAnswer n addr maxLen (b0 :: b1 :: rest) = ⟨.busy, [], []⟩ := by
  obtain ⟨b2, rest, rfl⟩ := List.exists_cons_of_length_pos hmin
  have hn : ¬ n < (b0 :: b1 :: b2 :: rest).length := Nat.not_lt.2 hmax
  simp only [decodeAnswer, hn, h, if_true, if_false]

theorem decodeAnswer_of_addressMismatch (h : headerClass addr b0 b1 = .addressMismatch) :
    decodeAnswer n addr maxLen (b0 :: b1 :: rest) = ⟨.addressMismatch, [], b0 :: b1 :: rest⟩ := by
  obtain ⟨b2, rest, rfl⟩ := List.exists_cons_of_length_pos hmin
  have hn : ¬ n < (b0 :: b1 :: b2 :: rest).length := Nat.not_lt.2 hmax
  obtain ⟨hA, hB, haddr⟩ := (headerClass_eq_addressMismatch_iff ..).1 h
  have hbusy : ¬ (b0 = 0x51#8 ∨ b0 = 0xFF#8) := not_or.2 ⟨hA, hB⟩
  have hne : b0 ≠ addr.setWidth 8 <<< 1 := haddr
  simp only [decodeAnswer, hn, hbusy, if_false]
  rw [if_pos hne]

/-- Past the busy and address checks: the tag bit, then the lengths and the fold (41_decode.md R69 to R75). -/
theorem decodeAnswer_of_addressByte :
    decodeAnswer n addr maxLen (addressByte addr :: b1 :: rest) =
      if tagBit b1 = false then ⟨.missingTag, [], addressByte addr :: b1 :: rest⟩
      else if maxLen < (declaredLength b1).toNat ∨ rest.length < (declaredLength b1).toNat + 1 then
        ⟨.lengthOverflow, [], addressByte addr :: b1 :: rest⟩
      else if fold 0x50#8 (addressByte addr :: b1 :: rest.take ((declaredLength b1).toNat + 1)) ≠ 0#8 then
        ⟨.checksumMismatch, [], addressByte addr :: b1 :: rest⟩
      else ⟨.ok, rest.take (declaredLength b1).toNat, []⟩ := by
  obtain ⟨b2, rest, rfl⟩ := List.exists_cons_of_length_pos hmin
  have hn : ¬ n < (addressByte addr :: b1 :: b2 :: rest).length := Nat.not_lt.2 hmax
  obtain ⟨hA, hB, -⟩ := addressByte_not_busy addr
  have hbusy : ¬ (addressByte addr = 0x51#8 ∨ addressByte addr = 0xFF#8) := not_or.2 ⟨hA, hB⟩
  have haddr : ¬ addressByte addr ≠ addr.setWidth 8 <<< 1 := not_not.2 rfl
  simp only [decodeAnswer, hn, hbusy, haddr, if_false, ← declaredLength_toNat]
  have hbounds :
      ((maxLen < (declaredLength b1).toNat ∨ n < (declaredLength b1).toNat) ∨
          (addressByte addr :: b1 :: b2 :: rest).length < (declaredLength b1).toNat + 3) ↔
        maxLen < (declaredLength b1).toNat ∨ (b2 :: rest).length < (declaredLength b1).toNat + 1 := by
    simp only [List.length_cons] at hmax ⊢
    omega
  rw [← tagBit, ← ite_or, if_congr hbounds rfl rfl]
  rfl

end InBounds

/-! ### The receive side after DECODE within the request bounds (10_state.md R20) -/

theorem State.decodeOp_rxb_of_bounds (s : State) (addr : Addr) (maxLen : Nat) {rx : List Byte} (hmin : 3 ≤ rx.length)
    (hmax : rx.length ≤ s.rxBufSize) : (s.decodeOp addr maxLen rx).rxb = rx := by
  obtain ⟨-, -, -, hrxb⟩ := s.decodeOp_frame addr maxLen rx
  rw [hrxb, if_neg (by omega)]

/-- The checks after byte 1 do not write `L` (41_decode.md R71 to R75). -/
theorem State.checkLength_declLen (s : State) (maxLen : Nat) : (s.checkLength maxLen).declLen = s.declLen := by
  unfold State.checkLength State.verdict
  split_ifs <;> rfl

/-- A frame header sets `L` (41_decode.md R70). -/
theorem State.decodeOp_declLen (s : State) (addr : Addr) (maxLen : Nat) {b1 : Byte} {rest : List Byte}
    (hmin : 1 ≤ rest.length) (hmax : rest.length + 2 ≤ s.rxBufSize) (htag : tagBit b1 = true) :
    (s.decodeOp addr maxLen (addressByte addr :: b1 :: rest)).declLen = declaredLength b1 := by
  obtain ⟨b2, rest, rfl⟩ := List.exists_cons_of_length_pos hmin
  obtain ⟨-, -, hbusy⟩ := addressByte_not_busy addr
  rw [State.decodeOp_cons s addr maxLen _ b1 b2 rest (Nat.not_lt.2 hmax)]
  simp [hbusy, State.checkMarker, htag, State.checkLength_declLen]

end Sys2Proof.Machine

open Sys2Proof Sys2Proof.Machine

/-- Settles O41: row by row. -/
theorem decodeUndoesEncode : Obligations.DecodeUndoesEncode := fun _ h => decode_encode h

/-- Settles O1: `outboundFrame` is the frame written out. -/
theorem encodeAnswersOutboundFrame : Obligations.EncodeAnswersOutboundFrame :=
  fun s a _ hp => ⟨_, rfl, s.encodeOp_response_short a hp⟩

/-- Settles O6: the parts of the outbound frame, at the length that the header announces. -/
theorem txHeaderGivesFrameWithThatHeader : Obligations.TxHeaderGivesFrameWithThatHeader := by
  intro s a l p hp
  have hshort : p.length ≤ 127 := by omega
  refine ⟨_, ⟨.ok, outboundFrame a p, []⟩, rfl, s.encodeOp_response_short a hshort, rfl, rfl, ?_, ?_, ?_, ?_⟩
  · rw [outboundFrame_length, hp]
  · change [0x51#8, packMarker p.length] = _
    rw [hp, packMarker_toNat]
  · rw [← hp, outboundFrame_payload]
  · rw [← hp, outboundFrame_take_body, outboundFrame_checksum]

/-- Settles O7: byte 1 of the frame is the payload's marker; the length checks bound what an accepted one declares. -/
theorem frameLengthIsSetByMarker : Obligations.FrameLengthIsSetByMarker := by
  intro s a m p rx hp
  refine ⟨⟨_, ⟨.ok, outboundFrame a p, []⟩, packMarker p.length, rfl, s.encodeOp_response_short a hp, rfl, ?_⟩,
    _, _, rfl, s.decodeOp_response a m rx, decodeAnswer_ok_frameLength⟩
  rw [outboundFrame_length, frameLength_packMarker hp]

/-- Settles O21: the two busy values of byte 0. -/
theorem busyHeadersAnswerBusy : Obligations.BusyHeadersAnswerBusy := by
  intro s a m b1 rest hmin hmax
  have hrow (b0 : Byte) (h : b0 = 0x51#8 ∨ b0 = 0xFF#8) :
      (s.decodeOp a m (b0 :: b1 :: rest)).response = some ⟨.busy, [], []⟩ ∧
        (s.decodeOp a m (b0 :: b1 :: rest)).rxb = b0 :: b1 :: rest :=
    ⟨by rw [s.decodeOp_response, decodeAnswer_of_busy hmin hmax h],
      s.decodeOp_rxb_of_bounds a m (by simpa using hmin) hmax⟩
  exact ⟨⟨_, rfl, hrow 0x51#8 (.inl rfl)⟩, ⟨_, rfl, hrow 0xFF#8 (.inr rfl)⟩⟩

/-- Settles O22: a well-formed row is of class AddressMismatch. -/
theorem mismatchHeaderAnswersMismatch : Obligations.MismatchHeaderAnswersMismatch := by
  intro s a m b0 b1 rest hmin hmax hwf
  have hclass : headerClass a b0 b1 = .addressMismatch := eq_of_beq hwf
  refine ⟨_, rfl, ?_, s.decodeOp_rxb_of_bounds a m (by simpa using hmin) hmax⟩
  rw [s.decodeOp_response, decodeAnswer_of_addressMismatch hmin hmax hclass]

/-- Settles O23: seven bits widened have the tag bit clear. -/
theorem untaggedHeaderAnswersMissingTag : Obligations.UntaggedHeaderAnswersMissingTag := by
  intro s a m low rest hmin hmax
  obtain ⟨htag, -⟩ := tagBit_setWidth low
  refine ⟨_, rfl, ?_⟩
  rw [s.decodeOp_response, decodeAnswer_of_addressByte hmin hmax, if_pos htag]
  rfl

/-- Settles O24: a marker has the tag bit and declares its length, so the length checks and the fold decide. -/
theorem frameHeaderGoesOnToChecks : Obligations.FrameHeaderGoesOnToChecks := by
  intro s a m l rest hmin hmax
  rw [← packMarker_toNat, ← addressByte]
  have htag := tagBit_packMarker l
  have hlen := declaredLength_packMarker l
  have hresp := s.decodeOp_response a m (addressByte a :: packMarker l.toNat :: rest)
  rw [decodeAnswer_of_addressByte hmin hmax, htag, if_neg Bool.noConfusion, hlen] at hresp
  refine ⟨_, rfl, (s.decodeOp_declLen a m hmin hmax htag).trans hlen, fun hover => ?_, fun hm hr hfold => ?_,
    fun hm hr hfold => ?_⟩
  · rw [hresp, if_pos hover]
  · rw [hresp, if_neg (by omega), if_pos hfold]
  · rw [hresp, if_neg (by omega), if_neg (not_not.2 hfold)]

/-- Settles O48: form by form, the instruction stands for the ENCODE or DECODE of the bytes. -/
theorem everyFormRunsItsBytes : Obligations.EveryFormRunsItsBytes := by
  intro s b0 b1 op a m d
  have hhdr := decodeInHdr_expansion (joinBytes b0 b1) a m d
  rw [highByte_joinBytes, lowByte_joinBytes, ← append_eq_joinBytes] at hhdr
  exact ⟨exec_eq_of_expansion (decodeOutHdr_expansion (b0 ++ b1) a d) s, exec_eq_of_expansion hhdr s,
    exec_eq_of_expansion (decodeOutMsg_expansion op a d) s, exec_eq_of_expansion (decodeInMsg_expansion a m d) s, rfl⟩

/-- Settles O26: the selector alone decides, and the operation only answers. -/
theorem reservedSelectorIsBadRequest : Obligations.ReservedSelectorIsBadRequest := by
  intro s a m d
  have hop : s.reservedOp.response = some ⟨.badRequest, [], []⟩ := rfl
  refine ⟨⟨rfl, rfl⟩, fun i hi => ⟨s.reservedOp, ?_, hop, rfl, rfl, rfl, rfl, s.reservedOp_sameOutside⟩⟩
  obtain rfl | rfl : i = .reservedCmd00 ∨ i = .reservedCmd11 := by simpa using hi
  · rfl
  · rfl

/-- Settles O34: every row but the two reserved ones expands to an ENCODE or a DECODE. -/
theorem notationRunsAsItsExpansion : Obligations.NotationRunsAsItsExpansion := by
  intro i s
  refine ⟨(exec_expansion i s).symm, ?_⟩
  cases i with
  | encode | txHdr | rdctrlReq | wrctrl | save | capsReq | presence | bare => exact .inl ⟨_, _, rfl⟩
  | decode | rxBusy51 | rxBusyFF | rxAddrMismatch | rxMissingTag | rxReplyHdr | rdctrlReply | capsReply =>
    exact .inr (.inl ⟨_, _, _, rfl⟩)
  | reservedCmd00 => exact .inr (.inr (.inl rfl))
  | reservedCmd11 => exact .inr (.inr (.inr rfl))

/-- Settles O46: each word is the one that the encoder presents. -/
theorem tableWordsDecode : Obligations.TableWordsDecode :=
  ⟨rfl, decode_encode (i := .txHdr 0x37#7 1#7 [0x0C#8]) rfl, decode_encode (i := .rxReplyHdr 0x37#7 8 8#7 []) rfl,
    decode_encode (i := .wrctrl 0x37#7 0x10#8 0x0132#16) rfl⟩

end

section
/-! Encode: the outbound frame folds to zero with its seed, and no receiver takes it for an inbound frame (40_encode.md
R57, R63, R64). -/

namespace Sys2Proof

/-! ### The fold and its seed (40_encode.md R63) -/

/-- Bytes fold to zero with a seed exactly when they fold to that seed alone. -/
theorem fold_eq_zero_iff (a : Byte) (xs : List Byte) : fold a xs = 0#8 ↔ fold 0#8 xs = a := by
  rw [fold_eq_xor_fold_zero, BitVec.xor_eq_zero_iff]
  exact eq_comm

/-- The shift by one keeps all seven address bits (30_encoding.md R43). -/
theorem addressByte_eq_zero_iff (addr : Addr) : addressByte addr = 0#8 ↔ addr = 0#7 := by
  revert addr; decide

end Sys2Proof

namespace Sys2Proof.Machine

/-! ### The outbound frame as a checksummed frame and as a received buffer (40_encode.md R63, R64) -/

/-- The frame as a received buffer: two header bytes and the rest (30_encoding.md R40). -/
theorem outboundFrame_eq_cons (addr : Addr) (p : List Byte) :
    outboundFrame addr p =
      0x51#8 :: packMarker p.length :: (p ++ [fold (addressByte addr) (outboundBody p)]) := rfl

theorem fold_outboundFrame (addr : Addr) (p : List Byte) : fold (addressByte addr) (outboundFrame addr p) = 0#8 :=
  fold_append_self (addressByte addr) (outboundBody p)

theorem fold_zero_outboundFrame (addr : Addr) (p : List Byte) : fold 0#8 (outboundFrame addr p) = addressByte addr :=
  (fold_eq_zero_iff ..).1 (fold_outboundFrame addr p)

/-- Byte 0 of an outbound frame is a BusyIndicator, whatever address it is decoded at (30_encoding.md R47). -/
theorem decodeAnswer_outboundFrame {n : Nat} (addr sender : Addr) (maxLen : Nat) {p : List Byte}
    (h : p.length + 3 ≤ n) : decodeAnswer n addr maxLen (outboundFrame sender p) = ⟨.busy, [], []⟩ := by
  rw [outboundFrame_eq_cons]
  exact decodeAnswer_of_busy (by simp) (by simpa using h) (.inl rfl)

end Sys2Proof.Machine

open Sys2Proof Sys2Proof.Machine

/-- Settles O4: the frame ends in its own fold, so its bytes alone fold to the seed, the address byte. -/
theorem outboundFrameFoldsToZero : Obligations.OutboundFrameFoldsToZero := by
  intro s a p hp
  have hzero := fold_zero_outboundFrame a p
  exact ⟨_, ⟨.ok, outboundFrame a p, []⟩, rfl, s.encodeOp_response_short a hp, rfl, fold_outboundFrame a p, hzero,
    hzero ▸ addressByte_eq_zero_iff a⟩

/-- Settles O5: the receiver sees a busy byte 0 before it looks at the address. -/
theorem decodeOfOutboundFrameIsBusy : Obligations.DecodeOfOutboundFrameIsBusy := by
  intro s u a b p m hp hfits
  refine ⟨_, ⟨.ok, outboundFrame a p, []⟩, _, rfl, s.encodeOp_response_short a hp, rfl, rfl, ?_⟩
  rw [u.decodeOp_response, decodeAnswer_outboundFrame b a m hfits]

/-- Settles O3: a payload that is too long ends the operation before its first write. -/
theorem encodeTooLongWritesNoFrameByte : Obligations.EncodeTooLongWritesNoFrameByte := by
  intro s a p hp
  exact ⟨_, congrArg Host.Outcome.next (s.encodeOp_long a p hp), rfl, rfl, rfl, rfl, rfl, rfl, rfl⟩

end

section
/-! Decode: what DECODE does with a received buffer check by check, which buffers it accepts, and what a changed byte
leads to (41_decode.md R66 to R82). -/

namespace Sys2Proof

theorem isBusy_iff (b0 : Byte) : isBusy b0 = true ↔ b0 = 0x51#8 ∨ b0 = 0xFF#8 := by
  simp [isBusy, Config.busyA, Config.busyB]

/-! ### The reply image (41_decode.md R79, R81) -/

theorem replyImage_eq_cons (addr : Addr) (p : List Byte) :
    replyImage addr p =
      addressByte addr :: packMarker p.length ::
        (p ++ [fold 0x50#8 (addressByte addr :: packMarker p.length :: p)]) := rfl

theorem fold_replyImage (addr : Addr) (p : List Byte) : fold 0x50#8 (replyImage addr p) = 0#8 :=
  fold_append_self 0x50#8 _

theorem replyImage_checksum (addr : Addr) (p : List Byte) :
    (replyImage addr p)[p.length + 2]? = some (fold 0x50#8 (addressByte addr :: packMarker p.length :: p)) :=
  List.getElem?_concat_length

/-- A header with the right address, and as many bytes after it as it declares and a checksum, is a reply image when the
fold over them is zero: the last of them is then the fold of those before it (30_encoding.md R46). -/
theorem eq_replyImage_append_of_fold_eq_zero {addr : Addr} {length : Nat} {rest : List Byte}
    (hlen : length < rest.length)
    (hfold : fold 0x50#8 (addressByte addr :: packMarker length :: rest.take (length + 1)) = 0#8) :
    addressByte addr :: packMarker length :: rest = replyImage addr (rest.take length) ++ rest.drop (length + 1) := by
  have htake : rest.take (length + 1) = rest.take length ++ [rest[length]] := List.take_succ_eq_append_getElem hlen
  rw [htake] at hfold
  have hsum := (fold_append_eq_zero_iff _ _ (addressByte addr :: packMarker length :: rest.take length)).1 hfold
  rw [replyImage_eq_cons, List.length_take_of_le hlen.le, ← hsum, ← htake, List.cons_append, List.cons_append,
    List.take_append_drop]

/-- A byte changed to another value spoils the checksum (R82). -/
theorem fold_replyImage_set_ne_zero (addr : Addr) (p : List Byte) {j : Nat} {v : Byte} (hj : j < p.length + 3)
    (hne : (replyImage addr p)[j]? ≠ some v) : fold 0x50#8 ((replyImage addr p).set j v) ≠ 0#8 := by
  have hlt : j < (replyImage addr p).length := by simpa using hj
  rw [fold_set _ _ _ _ hlt, fold_replyImage, BitVec.zero_xor, Ne, BitVec.xor_eq_zero_iff]
  rwa [List.getElem?_eq_getElem hlt, Ne, Option.some.injEq] at hne

theorem replyImage_append_set_of_lt (addr : Addr) (p tail : List Byte) {j : Nat} (v : Byte) (hj : j < p.length + 3) :
    (replyImage addr p ++ tail).set j v = (replyImage addr p).set j v ++ tail :=
  List.set_append_left j v (by rwa [replyImage_length])

theorem replyImage_append_set_of_le (addr : Addr) (p tail : List Byte) {j : Nat} (v : Byte) (hj : p.length + 3 ≤ j) :
    (replyImage addr p ++ tail).set j v = replyImage addr p ++ tail.set (j - (p.length + 3)) v := by
  rw [List.set_append_right j v (by rwa [replyImage_length]), replyImage_length]

/-- The two seeds and the two bytes 0 differ by 0x01 in sum. -/
theorem fold_rxInit_addressByte (addr : Addr) (xs : List Byte) :
    fold 0x50#8 (addressByte addr :: xs) = fold (addressByte addr) (0x51#8 :: xs) ^^^ 0x01#8 := by
  have hseed : 0x50#8 ^^^ addressByte addr = addressByte addr ^^^ 0x51#8 ^^^ 0x01#8 := by
    rw [BitVec.xor_assoc, BitVec.xor_comm]
    rfl
  rw [fold, fold, hseed, fold_xor_init]

end Sys2Proof

namespace Sys2Proof.Machine

/-! ### The verdict on the fold (41_decode.md R74, R75) -/

@[simp] theorem State.verdict_acc (s : State) : s.verdict.acc = s.acc := by
  unfold State.verdict
  split_ifs <;> rfl

@[simp] theorem State.verdict_declLen (s : State) : s.verdict.declLen = s.declLen := by
  unfold State.verdict
  split_ifs <;> rfl

theorem State.verdict_response (s : State) :
    s.verdict.response = some (if s.acc = 0#8 then ⟨.ok, (s.rxb.drop 2).take s.declLen.toNat, []⟩
      else ⟨.checksumMismatch, [], s.rxb⟩) := by
  unfold State.verdict
  by_cases h : s.acc = 0#8
  · rw [if_neg (not_not.2 h), if_pos h]
    rfl
  · rw [if_pos h, if_neg h]
    rfl

/-! ### The state in which each check ends DECODE (41_decode.md R67 to R75)

Within the request bounds of R66. A check that fails answers before the later ones write anything. -/

section InBounds

variable {s : State} {addr : Addr} {maxLen : Nat} {rx : List Byte} {b0 b1 : Byte}
  (hmin : 3 ≤ rx.length) (hmax : rx.length ≤ s.rxBufSize)

include hmin hmax

theorem State.decodeOp_eq_checkLead (h0 : rx[0]? = some b0) :
    s.decodeOp addr maxLen rx = (s.beginOp.rxLoad rx).checkLead addr maxLen b0 := by
  have hbounds : ¬ (rx.length < 3 ∨ s.rxBufSize < rx.length) := by omega
  simp only [State.decodeOp, State.beginOp_rxBufSize, hbounds, if_false, State.rxRead, State.rxLoad_rxb, h0]

theorem State.decodeOp_of_busy (h0 : rx[0]? = some b0) (hbusy : isBusy b0 = true) :
    s.decodeOp addr maxLen rx = (s.beginOp.rxLoad rx).raise .busy rx := by
  rw [State.decodeOp_eq_checkLead hmin hmax h0, State.checkLead, if_pos hbusy, State.rxLoad_rxb]

theorem State.decodeOp_of_addressMismatch (h0 : rx[0]? = some b0) (hbusy : ¬ isBusy b0 = true)
    (haddr : b0 ≠ addressByte addr) :
    s.decodeOp addr maxLen rx = (s.beginOp.rxLoad rx).raise .addressMismatch rx := by
  rw [State.decodeOp_eq_checkLead hmin hmax h0, State.checkLead, if_neg hbusy, if_pos haddr, State.rxLoad_rxb]

theorem State.decodeOp_eq_checkMarker (h0 : rx[0]? = some (addressByte addr)) (h1 : rx[1]? = some b1) :
    s.decodeOp addr maxLen rx = (s.beginOp.rxLoad rx).checkMarker maxLen b1 := by
  obtain ⟨-, -, hbusy⟩ := addressByte_not_busy addr
  rw [State.decodeOp_eq_checkLead hmin hmax h0, State.checkLead, hbusy, if_neg Bool.false_ne_true,
    if_neg (not_not.2 rfl)]
  simp only [State.rxRead, State.rxLoad_rxb, h1]

theorem State.decodeOp_of_untagged (h0 : rx[0]? = some (addressByte addr)) (h1 : rx[1]? = some b1)
    (htag : tagBit b1 = false) :
    s.decodeOp addr maxLen rx = (s.beginOp.rxLoad rx).raise .missingTag rx := by
  rw [State.decodeOp_eq_checkMarker hmin hmax h0 h1, State.checkMarker, if_pos htag, State.rxLoad_rxb]

theorem State.decodeOp_eq_checkLength {l : Len} (h0 : rx[0]? = some (addressByte addr))
    (h1 : rx[1]? = some (packMarker l.toNat)) :
    s.decodeOp addr maxLen rx = ((s.beginOp.rxLoad rx).setDeclLen l).checkLength maxLen := by
  rw [State.decodeOp_eq_checkMarker hmin hmax h0 h1, State.checkMarker, tagBit_packMarker, if_neg Bool.noConfusion,
    declaredLength_packMarker]

/-- Both checks of the declared length end alike, and the bound by `RX_BUF_SIZE` follows from the one by `n` (R71,
R72). -/
theorem State.decodeOp_of_overflow {l : Len} (h0 : rx[0]? = some (addressByte addr))
    (h1 : rx[1]? = some (packMarker l.toNat)) (hover : maxLen < l.toNat ∨ rx.length < l.toNat + 3) :
    s.decodeOp addr maxLen rx = ((s.beginOp.rxLoad rx).setDeclLen l).raise .lengthOverflow rx := by
  rw [State.decodeOp_eq_checkLength hmin hmax h0 h1, State.checkLength, ← ite_or]
  refine if_pos ?_
  simp only [State.setDeclLen_declLen, State.setDeclLen_rxb, State.rxLoad_rxb]
  omega

theorem State.decodeOp_eq_verdict {l : Len} (h0 : rx[0]? = some (addressByte addr))
    (h1 : rx[1]? = some (packMarker l.toNat)) (hbound : l.toNat ≤ maxLen) (hlen : l.toNat + 3 ≤ rx.length) :
    s.decodeOp addr maxLen rx =
      ((((s.beginOp.rxLoad rx).setDeclLen l).setAcc 0x50#8).foldBytes (rx.take (l.toNat + 3))).verdict := by
  rw [State.decodeOp_eq_checkLength hmin hmax h0 h1, State.checkLength, ← ite_or]
  refine if_neg ?_
  simp only [State.setDeclLen_declLen, State.setDeclLen_rxb, State.setDeclLen_rxBufSize, State.rxLoad_rxb,
    State.rxLoad_rxBufSize, State.beginOp_rxBufSize]
  omega

/-- Within the bounds on the declared length the fold decides (R73 to R75). -/
theorem State.decodeOp_response_of_fits {l : Len} (h0 : rx[0]? = some (addressByte addr))
    (h1 : rx[1]? = some (packMarker l.toNat)) (hbound : l.toNat ≤ maxLen) (hlen : l.toNat + 3 ≤ rx.length) :
    (s.decodeOp addr maxLen rx).response = some
      (if fold 0x50#8 (rx.take (l.toNat + 3)) = 0#8 then ⟨.ok, (rx.drop 2).take l.toNat, []⟩
        else ⟨.checksumMismatch, [], rx⟩) := by
  rw [State.decodeOp_eq_verdict hmin hmax h0 h1 hbound hlen, State.verdict_response]
  rfl

end InBounds

/-- A buffer within the request bounds has a header and at least one byte after it (R66). -/
theorem exists_header {rx : List Byte} (hmin : 3 ≤ rx.length) :
    ∃ b0 b1 rest, rx = b0 :: b1 :: rest ∧ 1 ≤ rest.length := by
  obtain ⟨b0, b1, b2, rest, rfl⟩ := three_bytes rx (Nat.not_lt.2 hmin)
  exact ⟨b0, b1, b2 :: rest, rfl, Nat.le_add_left 1 _⟩

/-- The two checks of byte 0 (R67, R68). -/
theorem decodeAnswer_of_ne_addressByte {n : Nat} {addr : Addr} {maxLen : Nat} {b0 b1 : Byte} {rest : List Byte}
    (hmin : 1 ≤ rest.length) (hmax : rest.length + 2 ≤ n) (haddr : b0 ≠ addressByte addr) :
    decodeAnswer n addr maxLen (b0 :: b1 :: rest) =
      if b0 = 0x51#8 ∨ b0 = 0xFF#8 then ⟨.busy, [], []⟩ else ⟨.addressMismatch, [], b0 :: b1 :: rest⟩ := by
  by_cases hbusy : b0 = 0x51#8 ∨ b0 = 0xFF#8
  · rw [decodeAnswer_of_busy hmin hmax hbusy, if_pos hbusy]
  · obtain ⟨hA, hB⟩ := not_or.1 hbusy
    rw [decodeAnswer_of_addressMismatch hmin hmax ((headerClass_eq_addressMismatch_iff ..).2 ⟨hA, hB, haddr⟩),
      if_neg hbusy]

/-! ### Which buffers DECODE accepts (41_decode.md R80) -/

theorem decodeAnswer_replyImage_append {n : Nat} (addr : Addr) {maxLen : Nat} {p : List Byte} (tail : List Byte)
    (hp : p.length ≤ 127) (hbound : p.length ≤ maxLen) (hmax : (replyImage addr p ++ tail).length ≤ n) :
    decodeAnswer n addr maxLen (replyImage addr p ++ tail) = ⟨.ok, p, []⟩ := by
  obtain ⟨htag, hlen⟩ := declaredLength_packMarker_nat hp
  have hfold := fold_replyImage addr p
  rw [replyImage_eq_cons] at hmax hfold ⊢
  simp only [List.cons_append, List.length_cons] at hmax ⊢
  rw [decodeAnswer_of_addressByte (by simp; omega) (by omega), htag, hlen, if_neg Bool.noConfusion,
    if_neg (by simp; omega), List.take_append_of_le_length (by simp), List.take_of_length_le (by simp),
    if_neg (not_not.2 hfold), List.append_assoc, List.take_left]

/-- A buffer answered OK begins with the reply image of its output: it has passed every check. -/
theorem exists_tail_of_decodeAnswer_ok {n : Nat} {addr : Addr} {maxLen : Nat} {rx p : List Byte}
    (hmin : 3 ≤ rx.length) (hmax : rx.length ≤ n) (h : decodeAnswer n addr maxLen rx = ⟨.ok, p, []⟩) :
    p.length ≤ 127 ∧ p.length ≤ maxLen ∧ ∃ tail, rx = replyImage addr p ++ tail := by
  obtain ⟨b0, b1, rest, rfl, hpos⟩ := exists_header hmin
  by_cases haddr : b0 = addressByte addr
  case neg =>
    rw [decodeAnswer_of_ne_addressByte hpos hmax haddr] at h
    split_ifs at h
    · cases h
    · cases h
  subst haddr
  rw [decodeAnswer_of_addressByte hpos hmax] at h
  split_ifs at h with htag hover hfold
  · cases h
  · cases h
  · cases h
  obtain ⟨l, rfl⟩ : ∃ l : Len, b1 = packMarker l.toNat :=
    ⟨declaredLength b1, (packMarker_declaredLength b1 (eq_true_of_ne_false htag)).symm⟩
  rw [declaredLength_packMarker] at h hover hfold
  obtain rfl : rest.take l.toNat = p := congrArg Response.out h
  have hlen : (rest.take l.toNat).length = l.toNat := List.length_take_of_le (by omega)
  exact ⟨by omega, by omega, rest.drop (l.toNat + 1),
    eq_replyImage_append_of_fold_eq_zero (by omega) (not_not.1 hfold)⟩

theorem decodeAnswer_eq_ok_iff {n : Nat} {addr : Addr} {maxLen : Nat} {rx p : List Byte} (hmin : 3 ≤ rx.length)
    (hmax : rx.length ≤ n) :
    decodeAnswer n addr maxLen rx = ⟨.ok, p, []⟩ ↔
      p.length ≤ 127 ∧ p.length ≤ maxLen ∧ ∃ tail, rx = replyImage addr p ++ tail := by
  refine ⟨exists_tail_of_decodeAnswer_ok hmin hmax, ?_⟩
  rintro ⟨hp, hbound, tail, rfl⟩
  exact decodeAnswer_replyImage_append addr tail hp hbound hmax

/-! ### What a response carries beside its status (41_decode.md R76, R78) -/

/-- Each check of DECODE answers with the diagnostic bytes of its status, and none looks for a long payload. -/
theorem decodeAnswer_status_and_diag (n : Nat) (addr : Addr) (maxLen : Nat) (rx : List Byte) :
    (decodeAnswer n addr maxLen rx).status ≠ .payloadTooLarge ∧
      (decodeAnswer n addr maxLen rx).diag = diagnostics (decodeAnswer n addr maxLen rx).status rx := by
  match rx with
  | [] | [_] | [_, _] => exact ⟨Status.noConfusion, rfl⟩
  | b0 :: b1 :: b2 :: rest =>
    unfold decodeAnswer
    dsimp only
    split_ifs <;> exact ⟨Status.noConfusion, rfl⟩

theorem diagnostics_eq_nil_or (status : Status) (rx : List Byte) :
    diagnostics status rx = [] ∨ diagnostics status rx = rx := by
  unfold diagnostics
  split_ifs
  · exact .inr rfl
  · exact .inl rfl

/-! ### Bytes after the declared frame (41_decode.md R77) -/

/-- The frame that byte 1 declares decides the status and the output; what follows is at most a diagnostic. -/
theorem decodeAnswer_append {n : Nat} (addr : Addr) (maxLen : Nat) {f : List Byte} {b1 : Byte} (x : List Byte)
    (h1 : f[1]? = some b1) (hlen : f.length = (declaredLength b1).toNat + 3) (hmax : (f ++ x).length ≤ n) :
    (decodeAnswer n addr maxLen (f ++ x)).status = (decodeAnswer f.length addr maxLen f).status ∧
      (decodeAnswer n addr maxLen (f ++ x)).out = (decodeAnswer f.length addr maxLen f).out := by
  obtain ⟨b0, b, rest, rfl, hpos⟩ := exists_header (rx := f) (by omega)
  obtain rfl : b = b1 := Option.some.inj h1
  rw [List.cons_append, List.cons_append] at hmax ⊢
  have hself : rest.length + 2 ≤ (b0 :: b :: rest).length := le_rfl
  have hpos' : 1 ≤ (rest ++ x).length := by
    rw [List.length_append]
    omega
  by_cases haddr : b0 = addressByte addr
  case neg =>
    rw [decodeAnswer_of_ne_addressByte hpos' hmax haddr, decodeAnswer_of_ne_addressByte hpos hself haddr]
    split_ifs <;> exact ⟨rfl, rfl⟩
  subst haddr
  have hrest : rest.length = (declaredLength b).toNat + 1 := by simpa using hlen
  have hshort : ¬ rest.length < (declaredLength b).toNat + 1 := by omega
  have hshort' : ¬ (rest ++ x).length < (declaredLength b).toNat + 1 := by
    rw [List.length_append]
    omega
  rw [decodeAnswer_of_addressByte hpos' hmax, decodeAnswer_of_addressByte hpos hself,
    List.take_append_of_le_length hrest.ge, List.take_append_of_le_length (by omega)]
  simp only [hshort, hshort', or_false]
  split_ifs <;> exact ⟨rfl, rfl⟩

end Sys2Proof.Machine

open Sys2Proof Sys2Proof.Machine

/-- Settles O16: the spec's frame, written out, is the reply image. -/
theorem decodeAcceptsExactlyReplyImages : Obligations.DecodeAcceptsExactlyReplyImages := by
  intro s a m rx p hmin hmax
  refine ⟨_, rfl, ?_⟩
  rw [s.decodeOp_response, Option.some.injEq, decodeAnswer_eq_ok_iff hmin hmax, and_assoc]
  exact and_congr_right fun _ => and_comm

/-- Settles O9: the busy check is the first after the request bounds. -/
theorem decodeBusyBeforeEveryFrameCheck : Obligations.DecodeBusyBeforeEveryFrameCheck := by
  intro s a m rx hmin hmax h
  obtain ⟨b0, h0, hbusy⟩ : ∃ b0, rx[0]? = some b0 ∧ isBusy b0 = true := by
    obtain h0 | h0 := h
    · exact ⟨_, h0, rfl⟩
    · exact ⟨_, h0, rfl⟩
  exact ⟨_, congrArg Host.Outcome.next (State.decodeOp_of_busy hmin hmax h0 hbusy), rfl, rfl, rfl⟩

/-- Settles O10: the address check is next, and `diag` is the buffer. -/
theorem decodeWrongAddressIsMismatch : Obligations.DecodeWrongAddressIsMismatch := by
  intro s a m rx b0 hmin hmax h0 hA hB haddr
  have hbusy : ¬ isBusy b0 = true := (isBusy_iff b0).not.2 (not_or.2 ⟨hA, hB⟩)
  exact ⟨_, congrArg Host.Outcome.next (State.decodeOp_of_addressMismatch hmin hmax h0 hbusy haddr), rfl, rfl, rfl⟩

/-- Settles O11: the tag check comes before the length is set. -/
theorem decodeClearTagIsMissingTag : Obligations.DecodeClearTagIsMissingTag := by
  intro s a m rx b1 hmin hmax h0 h1 htag
  exact ⟨_, congrArg Host.Outcome.next (State.decodeOp_of_untagged hmin hmax h0 h1 htag), rfl, rfl, rfl⟩

/-- Settles O12: `RX_BUF_SIZE` is at least the number of bytes received, so its bound is one of the other two. -/
theorem decodeLongLengthIsOverflow : Obligations.DecodeLongLengthIsOverflow := by
  intro s a m rx l hmin hmax h0 h1 hover
  rw [← packMarker_toNat] at h1
  exact ⟨_, congrArg Host.Outcome.next (State.decodeOp_of_overflow hmin hmax h0 h1 (by omega)), rfl, rfl, rfl⟩

/-- Settles O13: the state that the verdict is given in holds the length, the buffer and the fold. -/
theorem decodeFoldDecidesPayload : Obligations.DecodeFoldDecidesPayload := by
  intro s a m rx l hmax h0 h1 hbound hlen
  have hmin : 3 ≤ rx.length := by omega
  rw [← packMarker_toNat] at h1
  have hend := State.decodeOp_eq_verdict hmin hmax h0 h1 hbound hlen
  have hacc : (s.decodeOp a m rx).acc = fold 0x50#8 (rx.take (l.toNat + 3)) :=
    (congrArg State.acc hend).trans (State.verdict_acc _)
  have hresp := State.decodeOp_response_of_fits hmin hmax h0 h1 hbound hlen
  refine ⟨_, rfl, (congrArg State.declLen hend).trans (State.verdict_declLen _),
    s.decodeOp_rxb_of_bounds a m hmin hmax, hacc, fun hne => ?_, fun hzero => ⟨?_, ?_⟩⟩
  · rw [hresp, if_neg (hacc ▸ hne)]
  · rw [hresp, if_pos (hacc.symm.trans hzero)]
  · exact List.length_take_of_le (by rw [List.length_drop]; omega)

/-- Settles O14: the response is legal, and its diagnostic bytes are those of its status. -/
theorem decodeFailureGivesNoPayload : Obligations.DecodeFailureGivesNoPayload := by
  intro s a m rx
  obtain ⟨hout, -⟩ := decodeAnswer_legal s.rxBufSize a m rx
  obtain ⟨hstatus, hdiag⟩ := decodeAnswer_status_and_diag s.rxBufSize a m rx
  refine ⟨_, _, rfl, s.decodeOp_response a m rx, hstatus, hout, ?_, ?_⟩
  · rintro (h | h | h | h) <;> rw [hdiag, h] <;> rfl
  · rintro (h | h | h) <;> rw [hdiag, h] <;> rfl

/-- Settles O15: both buffers are answered as the frame alone is. -/
theorem decodeIgnoresTrailingBytes : Obligations.DecodeIgnoresTrailingBytes := by
  intro s a m f x y b1 h1 hlen hx hy
  rw [← declaredLength_toNat] at hlen
  obtain ⟨hstatusX, houtX⟩ := decodeAnswer_append a m x h1 hlen hx
  obtain ⟨hstatusY, houtY⟩ := decodeAnswer_append a m y h1 hlen hy
  obtain ⟨-, hdiag⟩ := decodeAnswer_status_and_diag s.rxBufSize a m (f ++ x)
  exact ⟨_, _, _, _, rfl, rfl, s.decodeOp_response a m (f ++ x), s.decodeOp_response a m (f ++ y),
    hstatusX.trans hstatusY.symm, houtX.trans houtY.symm, hdiag ▸ diagnostics_eq_nil_or _ _⟩

/-- Settles O17: the two frames have the marker and the payload in common. -/
theorem replyImageDiffersInTwoBytes : Obligations.ReplyImageDiffersInTwoBytes := by
  intro s a p hp
  obtain ⟨hA, -, -⟩ := addressByte_not_busy a
  refine ⟨_, ⟨.ok, outboundFrame a p, []⟩, rfl, s.encodeOp_response_short a hp, rfl, ?_, rfl, rfl, hA, ?_,
    _, outboundFrame_checksum a p, ?_⟩
  · rw [outboundFrame_length, replyImage_length]
  · intro i hi hle
    obtain ⟨k, rfl⟩ : ∃ k, i = k + 1 := ⟨i - 1, by omega⟩
    have hk : k < (packMarker p.length :: p).length := by simpa using hle
    change (packMarker p.length :: p ++ [_])[k]? = (packMarker p.length :: p ++ [_])[k]?
    rw [List.getElem?_append_left hk, List.getElem?_append_left hk]
  · rw [replyImage_checksum, fold_rxInit_addressByte]
    rfl

/-- Settles O18: byte 0 and byte 1 are looked at by the checks of the header, a byte of the payload or the checksum by
the fold, and a later one by none. -/
theorem singleByteErrorIsClassified : Obligations.SingleByteErrorIsClassified := by
  intro s a m p tail j v hp hbound hsize hj hne
  have hmin : 3 ≤ ((replyImage a p ++ tail).set j v).length := by simp; omega
  have hmax : ((replyImage a p ++ tail).set j v).length ≤ s.rxBufSize := by rwa [List.length_set]
  have hj_self : ((replyImage a p ++ tail).set j v)[j]? = some v := List.getElem?_set_self hj
  have h0 (h : j ≠ 0) : ((replyImage a p ++ tail).set j v)[0]? = some (addressByte a) := List.getElem?_set_ne h
  have h1 (h : j ≠ 1) : ((replyImage a p ++ tail).set j v)[1]? = some (packMarker p.length) := List.getElem?_set_ne h
  refine ⟨_, rfl, ?_, ?_, ?_, ?_, ?_, ?_, ?_⟩
  · rintro rfl hv
    rw [State.decodeOp_of_busy hmin hmax hj_self ((isBusy_iff v).2 hv)]
    rfl
  · rintro rfl hA hB
    have haddr : v ≠ addressByte a := fun h => hne (congrArg some h.symm)
    rw [State.decodeOp_of_addressMismatch hmin hmax hj_self ((isBusy_iff v).not.2 (not_or.2 ⟨hA, hB⟩)) haddr]
    rfl
  · rintro rfl htag
    rw [State.decodeOp_of_untagged hmin hmax (h0 one_ne_zero) hj_self htag]
    rfl
  · rintro l rfl hv hover
    have hmarker := hj_self.trans (congrArg some (hv.trans (packMarker_toNat l).symm))
    rw [State.decodeOp_of_overflow hmin hmax (h0 one_ne_zero) hmarker (by rwa [List.length_set])]
    rfl
  · rintro l rfl hv hm hfits
    have hmarker := hj_self.trans (congrArg some (hv.trans (packMarker_toNat l).symm))
    exact State.decodeOp_response_of_fits hmin hmax (h0 one_ne_zero) hmarker hm (by rwa [List.length_set])
  · intro hj2 hjL
    obtain ⟨l, hl⟩ : ∃ l : Len, l.toNat = p.length := ⟨BitVec.ofNat 7 p.length, by simp; omega⟩
    rw [State.decodeOp_response_of_fits hmin hmax (h0 (by omega)) (hl ▸ h1 (by omega)) (by omega) (by simp; omega),
      replyImage_append_set_of_lt a p tail v (by omega), List.take_left' (by simp [hl]),
      if_neg (fold_replyImage_set_ne_zero a p (by omega) ?_)]
    rwa [List.getElem?_append_left (by simp; omega)] at hne
  · intro hjL
    rw [s.decodeOp_response]
    rw [replyImage_append_set_of_le a p tail v hjL] at hmax ⊢
    rw [decodeAnswer_replyImage_append a _ hp hbound hmax]

/-- Settles O25: each row is presented as two header bytes and the rest. -/
theorem headersOutOfBoundsAreBadRequest : Obligations.HeadersOutOfBoundsAreBadRequest := by
  intro s a m b0 b1 l rest h
  have hrow (x y : Byte) : ∃ t, exec (.decode a m (x :: y :: rest)) s = .next t ∧
      t.response = some ⟨.badRequest, [], []⟩ ∧ t.rxb = s.beginOp.rxb := by
    have hbounds : (x :: y :: rest).length < 3 ∨ s.rxBufSize < (x :: y :: rest).length := by
      refine h.imp (fun hnil => ?_) id
      rw [hnil]
      exact Nat.lt_succ_self 2
    exact ⟨_, congrArg Host.Outcome.next (s.decodeOp_bad a m _ hbounds), rfl, rfl⟩
  simp only [List.forall_mem_cons]
  exact ⟨hrow _ _, hrow _ _, hrow _ _, hrow _ _, hrow _ _, List.forall_mem_nil _⟩

/-- Settles O8: DECODE only answers. -/
theorem decodeOutOfBoundsIsBadRequest : Obligations.DecodeOutOfBoundsIsBadRequest := by
  intro s a m rx h
  exact ⟨_, congrArg Host.Outcome.next (s.decodeOp_bad a m rx h), rfl, rfl, rfl, rfl, rfl, rfl, rfl⟩

/-- Settles O19: the first buffer is the reply image of two bytes, the second that of one, with a byte of tail. -/
theorem changedLengthMayDecodeSilently : Obligations.ChangedLengthMayDecodeSilently := by
  intro s hsize
  refine ⟨_, _, rfl, ?_, rfl, ?_⟩
  · rw [s.decodeOp_response]
    exact congrArg some
      (decodeAnswer_replyImage_append 0x37#7 (p := [0xBF#8, 0x00#8]) [] (by decide) (by decide) hsize)
  · rw [s.decodeOp_response]
    exact congrArg some
      (decodeAnswer_replyImage_append 0x37#7 (p := [0xBF#8]) [0x03#8] (by decide) (by decide) hsize)

end

section
/-! Payload layouts: each message to send is framed with its bytes in order, and each reply frame is delivered and read
back, 16-bit fields high byte first (45_payload_layouts.md R84 to R92). -/

namespace Sys2Proof

/-! ### 16-bit fields (45_payload_layouts.md R84) -/

theorem toNat_eq_highByte_lowByte (v : Half) : v.toNat = (highByte v).toNat * 256 + (lowByte v).toNat := by
  have hhigh : (highByte v).toNat = v.toNat / 256 := by
    simp only [highByte, BitVec.toNat_setWidth, BitVec.toNat_ushiftRight, Nat.shiftRight_eq_div_pow]
    omega
  have hlow : (lowByte v).toNat = v.toNat % 256 := BitVec.toNat_setWidth ..
  omega

/-! ### The payloads of the two replies (45_payload_layouts.md R86, R90) -/

theorem readControlReply_rdctrlReplyPayload (validity id reserved : Byte) (maximum current : Half) :
    readControlReply (rdctrlReplyPayload validity id reserved maximum current) =
      some ⟨Config.opRdctrlReply, validity, id, reserved, maximum, current⟩ := by
  simp only [readControlReply, rdctrlReplyPayload, joinBytes_highByte_lowByte]

@[simp] theorem capsReplyPayload_length (offset : Half) (data : List Byte) :
    (capsReplyPayload offset data).length = data.length + 3 := rfl

theorem readCapabilityChunk_capsReplyPayload (offset : Half) (data : List Byte) :
    readCapabilityChunk (capsReplyPayload offset data) = some ⟨Config.opCapsReply, offset, data⟩ := by
  simp only [readCapabilityChunk, capsReplyPayload, joinBytes_highByte_lowByte]

theorem terminalChunk_capsReplyPayload_iff (offset : Half) (data : List Byte) :
    terminalChunk (capsReplyPayload offset data) = true ↔ data = [] := by
  simp [terminalChunk]

end Sys2Proof

namespace Sys2Proof.Machine

/-! ### The checksum of a message (40_encode.md R58 to R61) -/

/-- The header and the opcode of a layout with `n` bytes fold to a constant `c`; the operands fold in one by one. -/
theorem State.encodeOp_response_message (s : State) (addr : Addr) {op marker c : Byte} {operands : List Byte} {n : Nat}
    (hn : operands.length + 1 = n) (hshort : n ≤ 127) (hmarker : packMarker n = marker)
    (hc : 0x51#8 ^^^ marker ^^^ op = c) :
    (s.encodeOp addr (op :: operands)).response =
      some ⟨.ok, 0x51#8 :: marker :: op :: operands ++ [fold (addr.setWidth 8 <<< 1 ^^^ c) operands], []⟩ := by
  subst hn hmarker hc
  rw [s.encodeOp_response_short addr (p := op :: operands) hshort, ← BitVec.xor_assoc, ← BitVec.xor_assoc]
  rfl

/-! ### DECODE of a reply image (41_decode.md R66, R71, R75, R79) -/

theorem State.decodeOp_replyImage_response_of_fits (s : State) (addr : Addr) {maxLen : Nat} {p : List Byte}
    (hp : p.length ≤ 127) (hbound : p.length ≤ maxLen) (hsize : p.length + 3 ≤ s.rxBufSize) :
    (s.decodeOp addr maxLen (replyImage addr p)).response = some ⟨.ok, p, []⟩ := by
  have himage : replyImage addr p ++ [] = replyImage addr p := List.append_nil _
  have hok := decodeAnswer_replyImage_append (n := s.rxBufSize) addr [] hp hbound (by simpa using hsize)
  rw [s.decodeOp_response, ← himage, hok]

theorem State.decodeOp_replyImage_response_of_overflow (s : State) (addr : Addr) {maxLen : Nat} {p : List Byte}
    (hp : p.length ≤ 127) (hover : maxLen < p.length) (hsize : p.length + 3 ≤ s.rxBufSize) :
    (s.decodeOp addr maxLen (replyImage addr p)).response = some ⟨.lengthOverflow, [], replyImage addr p⟩ := by
  obtain ⟨htag, hlen⟩ := declaredLength_packMarker_nat hp
  rw [s.decodeOp_response, replyImage_eq_cons, decodeAnswer_of_addressByte (by simp) (by simpa using hsize), htag,
    if_neg Bool.noConfusion, hlen, if_pos (.inl hover)]

theorem State.decodeOp_replyImage_response_of_too_long (s : State) (addr : Addr) (maxLen : Nat) {p : List Byte}
    (hsize : s.rxBufSize < p.length + 3) :
    (s.decodeOp addr maxLen (replyImage addr p)).response = some ⟨.badRequest, [], []⟩ := by
  rw [s.decodeOp_bad addr maxLen _ (.inr (by rwa [replyImage_length])), State.respond_response]

end Sys2Proof.Machine

open Sys2Proof Sys2Proof.Machine

/-- Settles O27: `0x51`, the marker of two bytes and the opcode fold to `0xD2`. -/
theorem readControlRequestIsFramed : Obligations.ReadControlRequestIsFramed :=
  fun s a id => ⟨_, rfl, s.encodeOp_response_message a (n := 2) (c := 0xD2#8) rfl (by decide) rfl rfl⟩

/-- Settles O28: the two bytes are the value's high and low byte. -/
theorem writeControlIsFramedHighByteFirst : Obligations.WriteControlIsFramedHighByteFirst :=
  fun s a id value => ⟨_, highByte value, lowByte value, rfl, toNat_eq_highByte_lowByte value,
    s.encodeOp_response_message a (n := 4) (c := 0xD6#8) rfl (by decide) rfl rfl⟩

/-- Settles O29: the header of a one-byte payload folds to `0xD0`, with SAVE's opcode to `0xDC`. -/
theorem bareCommandsAreFramed : Obligations.BareCommandsAreFramed := by
  intro s a op
  have hbare := s.encodeOp_response_message a (op := op) (c := 0xD0#8 ^^^ op) (operands := []) (n := 1) rfl (by decide)
    rfl rfl
  rw [fold, ← BitVec.xor_assoc] at hbare
  exact ⟨⟨_, rfl, hbare⟩, ⟨_, rfl, s.encodeOp_response_message a (n := 1) (c := 0xDC#8) rfl (by decide) rfl rfl⟩⟩

/-- Settles O30: the two bytes are the offset's high and low byte. -/
theorem capabilitiesRequestIsFramed : Obligations.CapabilitiesRequestIsFramed :=
  fun s a offset => ⟨_, highByte offset, lowByte offset, rfl, toNat_eq_highByte_lowByte offset,
    s.encodeOp_response_message a (n := 3) (c := 0x21#8) rfl (by decide) rfl rfl⟩

/-- Settles O31: the opcode is the first of at most 127 payload bytes, or of too many. -/
theorem presenceCheckIsFramed : Obligations.PresenceCheckIsFramed := by
  intro s a rest
  refine ⟨_, rfl, fun hshort => ?_, fun hlong => ?_⟩
  · exact s.encodeOp_response_short a (p := presencePayload rest) (Nat.succ_le_succ hshort)
  · rw [s.encodeOp_long a (presencePayload rest) (Nat.succ_lt_succ hlong), State.respond_response]

/-- Settles O32: the payload has as many bytes as the requester's bound, and its image three more. -/
theorem readControlReplyIsDelivered : Obligations.ReadControlReplyIsDelivered := by
  intro s a validity id reserved maximum current
  have hlen : (rdctrlReplyPayload validity id reserved maximum current).length = 8 := rfl
  refine ⟨_, highByte maximum, lowByte maximum, highByte current, lowByte current, rfl,
    toNat_eq_highByte_lowByte maximum, toNat_eq_highByte_lowByte current, fun hfits => ⟨?_, ?_⟩, fun hsmall => ?_⟩
  · exact s.decodeOp_replyImage_response_of_fits a (by omega) hlen.le (by omega)
  · exact readControlReply_rdctrlReplyPayload validity id reserved maximum current
  · exact s.decodeOp_replyImage_response_of_too_long a Config.controlReplyBound (by omega)

/-- Settles O33: the payload is three bytes longer than its data, and its image six. -/
theorem capabilitiesReplyIsDelivered : Obligations.CapabilitiesReplyIsDelivered := by
  intro s a m offset data hdata
  have hlen := capsReplyPayload_length offset data
  refine ⟨_, highByte offset, lowByte offset, rfl, toNat_eq_highByte_lowByte offset,
    fun hfits hbound => ⟨?_, ?_, ?_⟩, fun hfits hover => ?_, fun hsmall => ?_⟩
  · exact s.decodeOp_replyImage_response_of_fits a (by omega) (by omega) (by omega)
  · exact readCapabilityChunk_capsReplyPayload offset data
  · exact terminalChunk_capsReplyPayload_iff offset data
  · exact s.decodeOp_replyImage_response_of_overflow a (p := capsReplyPayload offset data) (by omega) (by omega)
      (by omega)
  · exact s.decodeOp_replyImage_response_of_too_long a m (by omega)

end

section
/-! Exceptions: no failure leaves a trace, so a run answers each request as if it were presented alone (60_exceptions.md
section 1, 70_reset_and_hazards.md section 3). -/

namespace Sys2Proof.Machine

theorem State.takesRequest_of_request {s : State} {r : Request} {rest : List Input} (h : s.inputs = .request r :: rest) :
    s.takesRequest = true := by
  rw [State.takesRequest, h]

/-- A step that takes a request adds that request's answer, and leaves what is still to be presented and `RX_BUF_SIZE`
to the steps after it. -/
theorem responses_succ_of_request {s : State} {r : Request} {rest : List Input} (k : Nat)
    (h : s.inputs = .request r :: rest) :
    ∃ t, t.inputs = rest ∧ t.rxBufSize = s.rxBufSize ∧
      responses (k + 1) s = answer s.rxBufSize (decode r) :: responses k t := by
  obtain ⟨t, -, hexec, -, hin, hsize⟩ := exec_answers (decode r) (s.withInputs rest)
  have hstep : step s = .next t := (step_of_request h).trans hexec
  have hresp : t.response = some (answer s.rxBufSize (decode r)) :=
    exec_response (s := s.withInputs rest) hexec
  refine ⟨t, hin, hsize, ?_⟩
  simp only [responses, hstep, State.takesRequest_of_request h, hresp, if_true, Option.toList_some,
    List.singleton_append]

/-- A run answers the requests presented to it one by one, each by itself (60_exceptions.md R95). -/
theorem responses_of_requests (rs : List Request) (later : List Input) :
    ∀ s : State, s.inputs = rs.map .request ++ later →
      responses rs.length s = rs.map (fun r => answer s.rxBufSize (decode r)) := by
  induction rs with
  | nil => exact fun _ _ => rfl
  | cons r rs ih =>
    intro s h
    obtain ⟨t, hin, hsize, hresp⟩ := responses_succ_of_request rs.length h
    rw [List.length_cons, hresp, ih t hin, hsize, List.map_cons]

end Sys2Proof.Machine

open Sys2Proof Sys2Proof.Machine

/-- Settles O38: the run answers each request by the instruction it decodes to, which is the one it encodes. -/
theorem runAnswersEachRequestAlone : Obligations.RunAnswersEachRequestAlone := by
  intro s is later hwf hin
  have hrun := responses_of_requests (is.map encode) later s (by rw [hin, List.map_map, Function.comp_def])
  rw [List.length_map, List.map_map] at hrun
  rw [hrun]
  refine List.map_congr_left fun i hi => ?_
  rw [Function.comp_apply, decode_encode (hwf i hi)]

end

section
/-! Reset and hazards: a step with no request to run (70_reset_and_hazards.md section 1). -/

namespace Sys2Proof.Machine

/-! ### What a pulse of reset leaves (R106, R107) -/

@[simp] theorem State.resetPulse_response (s : State) : s.resetPulse.response = none := rfl
@[simp] theorem State.resetPulse_inputs (s : State) : s.resetPulse.inputs = s.inputs := rfl
@[simp] theorem State.resetPulse_rxBufSize (s : State) : s.resetPulse.rxBufSize = s.rxBufSize := rfl

/-! ### The steps that run no request -/

theorem step_of_idle {s : State} (h : s.inputs = []) : step s = .next s := by
  rw [step, h]

/-- Reset steps alike whether it comes alone or during an operation: the request it interrupts leaves no trace
(R107). -/
theorem step_of_reset {s : State} {r : Request} {rest : List Input}
    (h : s.inputs = .reset :: rest ∨ s.inputs = .resetDuring r :: rest) :
    step s = .next (s.withInputs rest).resetPulse := by
  obtain h | h := h
  · rw [step, h]
  · rw [step, h]

end Sys2Proof.Machine

open Sys2Proof Sys2Proof.Machine

/-- Settles O45: an idle step has nothing to do, and reset discards what is in progress but not what is still to be
presented. -/
theorem stepWithoutRequest : Obligations.StepWithoutRequest := by
  intro s rest r
  refine ⟨step_of_idle, fun hreset => ⟨(s.withInputs rest).resetPulse, step_of_reset hreset, ?_, ?_, ?_⟩⟩
  · rw [State.resetPulse_response]
  · rw [State.resetPulse_inputs, State.withInputs_inputs]
  · rw [State.resetPulse_rxBufSize, State.withInputs_rxBufSize]

end
